-- ==== Sys2Proof/Word.lean ====
section
/-! DEFINITION. The widths of the block's ports and of its event slot (20_memory.md R40, 00_scope.md R8).
A timestamp has the open width `TS_W`, so it is a `Nat` that the operations keep below `2 ^ TS_W`. -/

namespace Sys2Proof

/-- `CMD[15:0]`, the command word (30_encoding.md R42). -/
abbrev Cmd := BitVec 16

/-- A WordPattern, `PATTERN[31:0]` (30_encoding.md R48; `PATTERN_W` = 32 of R8). -/
abbrev Pattern := BitVec 32

/-- The event slot's code, of `S.EVT` and of `EVT_OUT[1:0]` (10_state.md R19, 30_encoding.md R49). -/
abbrev EventCode := BitVec 2

/-- `ADJ[6:0]`, two's complement minutes (30_encoding.md R50). -/
abbrev AdjCode := BitVec 7

/-- `STAT[3:0]` (30_encoding.md R51). -/
abbrev StatCode := BitVec 4

/-- `ERR[2:0]` (60_exceptions.md R108). -/
abbrev ErrCode := BitVec 3

end Sys2Proof
end

