-- ==== Sys2Proof/Config.lean ====
section
/-! DEFINITION. What is fixed when the hardware is built: the parameters of 00_scope.md R8, each over every
value the spec admits, and the free values of the ports an operation leaves undriven. The opaque constants
have no body: nothing can evaluate one or prove a value of it. -/

namespace Sys2Proof

/-- The source's TimeOfDay (00_scope.md R12). -/
structure TimeOfDay where
  hour   : Fin 24
  minute : Fin 60
  second : Fin 60
deriving DecidableEq, Repr, Inhabited

/-- `EVENT_COLLISION`: which event survives when one is posted while another is pending
(41_debounce_edit.md R80, D13). -/
inductive EventCollision where
  | overwrite
  | drop
deriving DecidableEq, Repr, Inhabited

/-- `CONSUME_CLEAR_SCOPE`: whether a CONSUME of an event also cancels presses in progress
(41_debounce_edit.md R81, D15). -/
inductive ConsumeClearScope where
  | eventOnly
  | eventAndPresses
deriving DecidableEq, Repr, Inhabited

/-- `RTC_ADJUST`: the reference model of 45_host_render_loop.md R101, or the real RTC's arithmetic, which no
source gives (D30). -/
inductive RtcArithmetic where
  | reference
  | unknown
deriving DecidableEq, Repr, Inhabited

/-- A display colour, by a code of its own: no source gives a colour format (D29). -/
abbrev Color := Nat

/-- An hour word of `width` adjacent bits at bit `shift`: `((1 << w) − 1) << s` (40_translator.md R66). -/
def HourShape.maskOf (width shift : Nat) : Pattern :=
  ((1#32 <<< width) - 1#32) <<< shift

/-- The four constraints of 40_translator.md R66 on one entry of the hour table, in its order. -/
abbrev HourShape.Legal (width shift : Nat) : Prop :=
  (width = 1 ∨ width = 2) ∧ 11 ≤ shift ∧ shift + width ≤ 32 ∧
    HourShape.maskOf width shift &&& 0x0C0007FF#32 = 0#32

/-- One entry of the hour table with its four constraints: an entry that breaks R66 cannot be written
(93_implementation_defined.md U15). The values after `:=` only show that the type has an inhabitant. -/
structure HourShape where
  width : Nat := 1
  shift : Nat := 11
  legal : HourShape.Legal width shift := by decide
deriving DecidableEq, Repr, Inhabited

/-- The mask of an hour-table entry. -/
def HourShape.mask (h : HourShape) : Pattern := HourShape.maskOf h.width h.shift

/-- The entry of a given width and shift; none where R66 is broken (U15: the configuration is refused). -/
def HourShape.of? (width shift : Nat) : Option HourShape :=
  if h : HourShape.Legal width shift then some ⟨width, shift, h⟩ else none

/-- The parameters of 00_scope.md R8 that a source leaves open. `IDLE_WAIT` is not among them: the model has
no time. The default time of `seed_default_time()` stands beside them, since no rule gives it (R7, R122). -/
structure Config where
  /-- `TS_W`. -/
  tsWidth : Nat := 32
  /-- `HOUR_MASK[1..12]`; entry `i` is the mask of hour `i + 1`. -/
  hours : Vector HourShape 12
  /-- `EVENT_COLLISION`. -/
  eventCollision : EventCollision
  /-- `CONSUME_CLEAR_SCOPE`. -/
  consumeClearScope : ConsumeClearScope
  /-- `RTC_ADJUST`. -/
  rtcArithmetic : RtcArithmetic
  /-- `ON_COLOR`. -/
  onColor : Color := 1
  /-- `OFF_COLOR`. -/
  offColor : Color := 0
  /-- What `seed_default_time()` writes. -/
  defaultTime : TimeOfDay
  /-- 70_reset_and_hazards.md R123: `TS_W ≥ 7`. -/
  tsWidth_ge : 7 ≤ tsWidth := by decide
  /-- D29: the two colours are assumed distinct. -/
  colors_ne : onColor ≠ offColor := by decide
deriving DecidableEq, Repr, Inhabited

/-- The configuration of given parameters; none outside R123 or D29 (U15: the configuration is refused). -/
def Config.of? (tsWidth : Nat) (hours : Vector HourShape 12) (eventCollision : EventCollision)
    (consumeClearScope : ConsumeClearScope) (rtcArithmetic : RtcArithmetic) (onColor offColor : Color)
    (defaultTime : TimeOfDay) : Option Config :=
  if hw : 7 ≤ tsWidth then
    if hc : onColor ≠ offColor then
      some { tsWidth, hours, eventCollision, consumeClearScope, rtcArithmetic, onColor, offColor,
             defaultTime, tsWidth_ge := hw, colors_ne := hc }
    else none
  else none

/-- The configuration the hardware was built with: any conforming one (DESIGN CHOICE, log 4 and log 5: safe,
no value is chosen). -/
opaque Config.installed : Config

/-- The n-th free value of an undriven `PATTERN` port (93_implementation_defined.md U3; log 6: safe). -/
opaque Config.freePattern : Nat → Pattern

/-- The n-th free value of an undriven `EVT_OUT` port (U3; log 6: safe). -/
opaque Config.freeEvtOut : Nat → EventCode

/-- The n-th free value of an undriven `ADJ` port (U3; log 6: safe). -/
opaque Config.freeAdj : Nat → AdjCode

/-- The n-th free value of an undriven `STAT` port (U3; log 6: safe). -/
opaque Config.freeStat : Nat → StatCode

/-- The n-th free value of an undriven `ERR` port: only reset leaves it undriven (R26, R119; log 6: safe). -/
opaque Config.freeErr : Nat → ErrCode

/-- The real RTC's `adjust(d)`: what its time is after the n-th call, given the delta and the time before
(45_host_render_loop.md R101, U10; log 11: safe). -/
opaque Config.rtcAdjust : Nat → BitVec 32 → TimeOfDay → TimeOfDay

end Sys2Proof
end

