-- ==== Sys2Proof/Syntax.lean ====
section
/-! DEFINITION. The five operations of spec/opcode_table.json, their operands (30_encoding.md R52), and the
refusal codes' names (60_exceptions.md R108). -/

namespace Sys2Proof

/-- A debounce channel (00_scope.md R13): 1 is button 1 (forward), 2 is button 2 (backward). -/
inductive Channel where
  | ch1
  | ch2
deriving DecidableEq, Repr

/-- The direction of an edge notification (45_host_render_loop.md R103). -/
inductive Edge where
  | falling
  | rising
deriving DecidableEq, Repr

/-- The operations of the block, one constructor per row of the opcode table. Hour and minute are the fields
of the command word as they stand in it; `ts` is the `TS` operand, a count of milliseconds. -/
inductive Instr where
  /-- `TRANSLATE <hour>, <minute>` (40_translator.md R61). -/
  | translate (hour : BitVec 5) (minute : BitVec 6)
  /-- `EDGE.F b<ch>, <ts>` (41_debounce_edit.md R78). -/
  | edgeF (ch : Channel) (ts : Nat)
  /-- `EDGE.R b<ch>, <ts>` (41_debounce_edit.md R79). -/
  | edgeR (ch : Channel) (ts : Nat)
  /-- `CONSUME` (41_debounce_edit.md R81). -/
  | consume
  /-- `STATUS` (41_debounce_edit.md R83). -/
  | status
deriving DecidableEq, Repr

/-- Why a command word is refused (60_exceptions.md R108, rows 1 to 4). -/
inductive RefuseCode where
  | illegalOp
  | reservedBits
  | hourRange
  | minuteRange
deriving DecidableEq, Repr

end Sys2Proof
end

