-- ==== Sys2Proof/WellFormed.lean ====
section
/-! DEFINITION. Which instructions a command word can carry (30_encoding.md R44, R52). -/

namespace Sys2Proof

/-- Well-formed: a TRANSLATE has a legal hour (0-23) and a legal minute (0-59); every other operation always
is (30_encoding.md R52, R53). -/
def Instr.wellFormed : Instr → Bool
  | .translate hour minute => decide (hour.toNat < 24) && decide (minute.toNat < 60)
  | .edgeF _ _ => true
  | .edgeR _ _ => true
  | .consume => true
  | .status => true

/-- The `TS` operand fits a port of `tsWidth` bits (30_encoding.md R42). An operand that does not is applied
modulo `2 ^ tsWidth` (41_debounce_edit.md R91). -/
def Instr.tsFits (tsWidth : Nat) : Instr → Bool
  | .translate _ _ => true
  | .edgeF _ ts => decide (ts < 2 ^ tsWidth)
  | .edgeR _ ts => decide (ts < 2 ^ tsWidth)
  | .consume => true
  | .status => true

end Sys2Proof
end

