-- ==== Sys2Proof/Decode.lean ====
section
/-! DEFINITION. The decoder of 30_encoding.md R56, total on every command word and rejecting by name, the
encoder of R44-R47, and the opcode map of R53. -/

namespace Sys2Proof

/-- The code a refusal drives on `ERR[2:0]` (60_exceptions.md R108). -/
def RefuseCode.err : RefuseCode → ErrCode
  | .illegalOp => 1#3
  | .reservedBits => 2#3
  | .hourRange => 3#3
  | .minuteRange => 4#3

/-- `ch = CMD[12] + 1` (30_encoding.md R52). -/
def channelOf (bit12 : Bool) : Channel :=
  if bit12 then .ch2 else .ch1

/-- The CH bit of a channel: the inverse of `channelOf` (30_encoding.md R45). -/
def Channel.bit : Channel → BitVec 16
  | .ch1 => 0x0000#16
  | .ch2 => 0x1000#16

/-- Format T's fields below OP (30_encoding.md R44), checked in the order of R54. -/
def decodeTranslate (cmd : Cmd) : Except RefuseCode Instr :=
  let hour := cmd.extractLsb' 6 5
  let minute := cmd.extractLsb' 0 6
  if cmd.extractLsb' 11 2 ≠ 0#2 then .error .reservedBits
  else if 24 ≤ hour.toNat then .error .hourRange
  else if 60 ≤ minute.toNat then .error .minuteRange
  else .ok (.translate hour minute)

/-- Format E's fields below OP (30_encoding.md R45). -/
def decodeEdge (cmd : Cmd) (ts : Nat) : Except RefuseCode Instr :=
  if cmd.extractLsb' 0 11 ≠ 0#11 then .error .reservedBits
  else if cmd.getLsbD 11 then .ok (.edgeR (channelOf (cmd.getLsbD 12)) ts)
  else .ok (.edgeF (channelOf (cmd.getLsbD 12)) ts)

/-- Formats C and S below OP: thirteen reserved bits (30_encoding.md R46, R47). -/
def decodePlain (cmd : Cmd) (i : Instr) : Except RefuseCode Instr :=
  if cmd.extractLsb' 0 13 ≠ 0#13 then .error .reservedBits else .ok i

/-- The decoder of 30_encoding.md R56, by the operation field OP of R43. -/
def decode (cmd : Cmd) (ts : Nat) : Except RefuseCode Instr :=
  match (cmd.extractLsb' 13 3).toNat with
  | 0 => decodeTranslate cmd
  | 1 => decodeEdge cmd ts
  | 2 => decodePlain cmd .consume
  | 3 => decodePlain cmd .status
  | _ => .error .illegalOp

/-- The command word of an instruction (30_encoding.md R44-R47). -/
def encodeCmd : Instr → Cmd
  | .translate hour minute => (hour.setWidth 16 <<< 6) ||| minute.setWidth 16
  | .edgeF ch _ => 0x2000#16 ||| ch.bit
  | .edgeR ch _ => 0x2800#16 ||| ch.bit
  | .consume => 0x4000#16
  | .status => 0x6000#16

/-- The `TS` operand an instruction is issued with; 0 where the operation ignores it (R42, D33). -/
def encodeTs : Instr → Nat
  | .translate _ _ => 0
  | .edgeF _ ts => ts
  | .edgeR _ ts => ts
  | .consume => 0
  | .status => 0

/-- The words of an instruction: its command word and its `TS` operand (30_encoding.md R42, R55). -/
def encode (i : Instr) : Cmd × Nat := (encodeCmd i, encodeTs i)

/-- A row of the opcode map (30_encoding.md R53). -/
structure OpRow where
  mnemonic  : String
  matchWord : Cmd
  mask      : Cmd
deriving DecidableEq, Repr

/-- The opcode map of 30_encoding.md R53. -/
def opcodeMap : List OpRow :=
  [ ⟨"TRANSLATE", 0x0000#16, 0xF800#16⟩,
    ⟨"EDGE.F", 0x2000#16, 0xEFFF#16⟩,
    ⟨"EDGE.R", 0x2800#16, 0xEFFF#16⟩,
    ⟨"CONSUME", 0x4000#16, 0xFFFF#16⟩,
    ⟨"STATUS", 0x6000#16, 0xFFFF#16⟩ ]

/-- The row of an instruction in the opcode map (30_encoding.md R53). -/
def Instr.row : Instr → OpRow
  | .translate _ _ => ⟨"TRANSLATE", 0x0000#16, 0xF800#16⟩
  | .edgeF _ _ => ⟨"EDGE.F", 0x2000#16, 0xEFFF#16⟩
  | .edgeR _ _ => ⟨"EDGE.R", 0x2800#16, 0xEFFF#16⟩
  | .consume => ⟨"CONSUME", 0x4000#16, 0xFFFF#16⟩
  | .status => ⟨"STATUS", 0x6000#16, 0xFFFF#16⟩

/-- A word lies in a row: `(CMD & mask) = match` (30_encoding.md R53). -/
def OpRow.covers (r : OpRow) (cmd : Cmd) : Bool := decide (cmd &&& r.mask = r.matchWord)

/-- The refusal order of 30_encoding.md R54, first match wins; none for the words it does not name. Written
from R54's list, beside the decoder, which is written from R56. -/
def refusalOf (cmd : Cmd) : Option RefuseCode :=
  let op := (cmd.extractLsb' 13 3).toNat
  if 4 ≤ op then some .illegalOp
  else if (op = 0 ∧ cmd.extractLsb' 11 2 ≠ 0#2) ∨ (op = 1 ∧ cmd.extractLsb' 0 11 ≠ 0#11) ∨
      (2 ≤ op ∧ cmd.extractLsb' 0 13 ≠ 0#13) then some .reservedBits
  else if op = 0 ∧ 24 ≤ (cmd.extractLsb' 6 5).toNat then some .hourRange
  else if op = 0 ∧ 60 ≤ (cmd.extractLsb' 0 6).toNat then some .minuteRange
  else none

/-- An edge notification's operation (45_host_render_loop.md R103). -/
def Edge.instr (e : Edge) (ch : Channel) (ts : Nat) : Instr :=
  match e with
  | .falling => .edgeF ch ts
  | .rising => .edgeR ch ts

/-- The pseudo-instruction `PRESS b<c>, <t0>, <t1>` (30_encoding.md R58). -/
def press (ch : Channel) (t0 t1 : Nat) : List Instr := [.edgeF ch t0, .edgeR ch t1]

/-- The instruction the decoder reads from `nbits` bits `w`: `CMD` is bits 15..0, the `TS` operand word the bits
from 16 on, zero above `nbits` (30_encoding.md R42, R55). -/
def decodeTableWord (nbits w : Nat) : Option Instr :=
  (decode (BitVec.ofNat 16 (w % 2 ^ nbits)) (w % 2 ^ nbits / 2 ^ 16)).toOption

end Sys2Proof
end

