-- ==== Sys2Proof/Machine/State.lean ====
section
/-! DEFINITION. The machine's state: the block's record S of 10_state.md R15, the result ports of R26, the host
of 45_host_render_loop.md, the configuration, and the interleaving of the agents' turns. Plain data. -/

namespace Sys2Proof.Machine

/-- One debounce channel: `S.DOWN[ch]` and `S.TS[ch]` (10_state.md R15, R17, R18). -/
structure Debounce where
  down : Bool
  ts   : Nat
deriving DecidableEq, Repr

/-- The block state S, "exactly this record and nothing else" (10_state.md R15). -/
structure Block where
  ch1 : Debounce
  ch2 : Debounce
  evt : EventCode
deriving DecidableEq, Repr

/-- The result ports (10_state.md R26). No operation reads them. -/
structure Ports where
  pattern : Pattern
  evtOut  : EventCode
  adj     : AdjCode
  stat    : StatCode
  err     : ErrCode
deriving DecidableEq, Repr

/-- Where the render-loop thread stands: the boot sequence of 70_reset_and_hazards.md R122 and the iteration of
45_host_render_loop.md R95, one constructor per action. -/
inductive Phase where
  /-- R122 step 1: initialise the RTC. -/
  | bootRtc
  /-- R122 step 2: `lost_power()` and the seed. -/
  | bootPower
  /-- R122 step 3: reset the block and `H.prev_pattern`. -/
  | bootReset
  /-- R122 step 4: enable the edge source. -/
  | bootEdges
  /-- R95 step 1: `r = CONSUME`. -/
  | consume
  /-- R95 step 1: `RTC.adjust(sext_32(r.ADJ))`, entered only when `r.EVT_OUT ≠ 0`. -/
  | adjust
  /-- R95 step 2: `(h, m, s) = RTC.read()`. -/
  | read
  /-- R95 step 3: `p = TRANSLATE(h, m).PATTERN`. -/
  | translate
  /-- R95 steps 4 and 5: compare `p` with `H.prev_pattern`. -/
  | compare
  /-- R95 step 4: the idle wait. -/
  | idle
  /-- R95 step 5: `Display.set(i, px[i])`. -/
  | setPixel (i : Fin 30)
  /-- R95 step 5: `Display.show()`. -/
  | flush
  /-- R95 step 5: the diagnostic line. -/
  | log
  /-- R122 step 1: the RTC was unreachable; the loop is never entered. -/
  | halted
deriving DecidableEq, Repr

/-- The render-loop thread: its position, `H.prev_pattern` (R93) and the loop's own copies of what it read
(R95, R126). -/
structure Loop where
  phase        : Phase
  prevPattern  : Pattern
  adj          : AdjCode
  snapshot     : TimeOfDay
  pattern      : Pattern
  edgesEnabled : Bool
deriving DecidableEq, Repr

/-- The RTC collaborator (45_host_render_loop.md R101, R102; 70_reset_and_hazards.md R122). -/
structure Rtc where
  time      : TimeOfDay
  reachable : Bool
  lostPower : Bool
deriving DecidableEq, Repr

/-- The display collaborator: the buffer `set` writes and what `show` has flushed to the strip
(45_host_render_loop.md R99; `N_PIXELS` = 30 of R8). -/
structure Display where
  buffer : Vector Color 30
  shown  : Vector Color 30
deriving DecidableEq, Repr

/-- One turn of the interleaving (20_memory.md R35, 60_exceptions.md R111): which agent acts, and with what. -/
inductive Turn where
  /-- Any issuer gives the block a command word and a `TS` operand (30_encoding.md R42, 60_exceptions.md R114).
  The host's thread does not act on what the block answers (DESIGN CHOICE, log 24). -/
  | command (cmd : Cmd) (ts : Nat)
  /-- The edge source delivers a notification (45_host_render_loop.md R103). -/
  | edge (ch : Channel) (e : Edge) (ts : Nat)
  /-- The render-loop thread takes its next action (R95, R122). -/
  | loop
  /-- The platform asserts reset (70_reset_and_hazards.md R119, R121): the block's alone, not the host's (DESIGN
  CHOICE, log 26). -/
  | reset
  /-- Power goes and returns: only the RTC's data survive (60_exceptions.md R118; log 15). -/
  | powerCycle
  /-- The RTC's own data change: time passes, power was lost (45_host_render_loop.md R102). -/
  | rtc (r : Rtc)
deriving DecidableEq, Repr

/-- The machine. -/
structure State where
  /-- The parameters (00_scope.md R8). No operation writes them (10_state.md R22). -/
  config      : Config
  /-- The block state S (10_state.md R15). -/
  block       : Block
  /-- The result ports of the last operation (10_state.md R26). -/
  ports       : Ports
  /-- The edit command the last operation emitted, `delta_minutes` (00_scope.md R10, 41_debounce_edit.md R81). -/
  adjust      : Option (BitVec 32)
  /-- The refusal mark, "kept for the rest of the run" (60_exceptions.md R107). -/
  refusalMark : Bool
  /-- The model's own: how many free values have been drawn (log 6). -/
  freeCount   : Nat
  /-- The model's own: the turns still to come, in order; when none is left the render loop goes on (log 2). -/
  turns       : List Turn
  /-- The render-loop thread (45_host_render_loop.md R93, R95). -/
  loop        : Loop
  /-- The RTC collaborator. -/
  rtc         : Rtc
  /-- The display collaborator. -/
  display     : Display
  /-- The diagnostic lines, newest first (45_host_render_loop.md R100). -/
  log         : List TimeOfDay
deriving DecidableEq, Repr

/-- Why the machine stops with a fault. -/
inductive Fault where
  /-- An operation that reads `S.EVT` met the value 3, which no rule writes (93_implementation_defined.md U14).
  Raised by EDGE.R where it posts, by CONSUME and by STATUS. Safe: the model stops where the spec says that the
  model or the implementation is broken. -/
  | illegalEventSlot
deriving DecidableEq, Repr

/-- Why the machine gives an instruction no meaning. -/
inductive Refusal where
  /-- Raised by an arm of `exec` whose instruction has no meaning yet; no arm does. Safe. -/
  | notModelled (mnemonic : String)
deriving DecidableEq, Repr

/-- The reset value of S (10_state.md R25). -/
def Block.reset : Block :=
  { ch1 := { down := false, ts := 0 }, ch2 := { down := false, ts := 0 }, evt := 0#2 }

/-- Every port undriven: each holds its n-th free value (10_state.md R26, U3; log 6). -/
def Ports.undriven (n : Nat) : Ports :=
  { pattern := Config.freePattern n
    evtOut := Config.freeEvtOut n
    adj := Config.freeAdj n
    stat := Config.freeStat n
    err := Config.freeErr n }

/-- 0:0:0 (log 10). -/
def midnight : TimeOfDay := { hour := 0, minute := 0, second := 0 }

/-- The render-loop thread at power-up: before R122 step 1, `H.prev_pattern` at its sentinel (R94), the edge
source not enabled (R122 step 4). The copies' values are DESIGN CHOICES (log 10). -/
def Loop.reset : Loop :=
  { phase := .bootRtc
    prevPattern := 0#32
    adj := 0#7
    snapshot := midnight
    pattern := 0#32
    edgesEnabled := false }

/-- The display at power-up: thirty pixels of colour code 0 in the buffer and on the strip (DESIGN CHOICE, log 10).
Nothing of it survives a power loss (20_memory.md R31, 45_host_render_loop.md R102). -/
def Display.reset : Display := { buffer := Vector.replicate 30 0, shown := Vector.replicate 30 0 }

/-- The machine right after reset (70_reset_and_hazards.md R119): S at the values of 10_state.md R25, the ports
undriven, no Adjust, the configuration as built. The collaborators' values are DESIGN CHOICES (log 10). -/
def State.reset : State :=
  { config := Config.installed
    block := Block.reset
    ports := Ports.undriven 0
    adjust := none
    refusalMark := false
    freeCount := 1
    turns := []
    loop := Loop.reset
    rtc := { time := midnight, reachable := true, lostPower := false }
    display := Display.reset
    log := [] }

end Sys2Proof.Machine
end

