-- ==== Sys2Proof/Machine/Operands.lean ====
section
/-! DEFINITION. The operands of an operation: the channel a word selects and the timestamp (30_encoding.md R52),
and the arithmetic on timestamps (41_debounce_edit.md R84). -/

namespace Sys2Proof.Machine

/-- `DEBOUNCE_MS` (00_scope.md R8, 41_debounce_edit.md R85). -/
def debounceMs : Nat := 50

/-- The `TS` operand as a `TS_W`-bit number; one that is wider counts modulo `2 ^ TS_W` (41_debounce_edit.md
R91). -/
def timestamp (c : Config) (ts : Nat) : Nat := ts % 2 ^ c.tsWidth

/-- The elapsed time `(ts − t) mod 2 ^ TS_W` (41_debounce_edit.md R84), with the `mod` of 00_scope.md R9, whose
left operand may be negative. -/
def elapsed (c : Config) (ts t : Nat) : Nat := (((ts : Int) - (t : Int)) % ((2 ^ c.tsWidth : Nat) : Int)).toNat

/-- `S.DOWN[ch]` and `S.TS[ch]` of a channel (10_state.md R17, R18). -/
def Block.chan (b : Block) : Channel → Debounce
  | .ch1 => b.ch1
  | .ch2 => b.ch2

/-- Write one channel's pair and nothing else of S (41_debounce_edit.md R86). -/
def Block.setChan (b : Block) (ch : Channel) (d : Debounce) : Block :=
  match ch with
  | .ch1 => { b with ch1 := d }
  | .ch2 => { b with ch2 := d }

/-- The event code of a Released event of a channel (10_state.md R19). -/
def eventOf : Channel → EventCode
  | .ch1 => 1#2
  | .ch2 => 2#2

end Sys2Proof.Machine
end

