-- ==== Sys2Proof/Machine/Flags.lean ====
section
/-! DEFINITION. The block has no condition codes (10_state.md R21). Its status bits are the ones STATUS and
CONSUME drive: the encodings of 30_encoding.md R49-R51. -/

namespace Sys2Proof.Machine

/-- `STAT <- {S.DOWN[2], S.DOWN[1], S.EVT}` (30_encoding.md R51, 41_debounce_edit.md R83). -/
def statOf (b : Block) : StatCode :=
  BitVec.ofBool b.ch2.down ++ (BitVec.ofBool b.ch1.down ++ b.evt)

/-- `ADJ` of an event: +5 forward, −5 backward, 0 for none, in 7-bit two's complement (30_encoding.md R50,
41_debounce_edit.md R81). -/
def adjOf (e : EventCode) : AdjCode :=
  if e = 1#2 then 0x05#7 else if e = 2#2 then 0x7B#7 else 0x00#7

/-- The edit command handed to the host: `Adjust(sext_32(ADJ))` for an event, nothing for none
(41_debounce_edit.md R81, R82). -/
def adjustOf (e : EventCode) : Option (BitVec 32) :=
  if e = 0#2 then none else some ((adjOf e).signExtend 32)

/-- The event slot after POST (41_debounce_edit.md R80), under either value of `EVENT_COLLISION`. -/
def postSlot (policy : EventCollision) (pending new : EventCode) : EventCode :=
  if pending = 0#2 then new
  else
    match policy with
    | .overwrite => new
    | .drop => pending

/-- S after CONSUME took event `S.EVT` (41_debounce_edit.md R81), under either value of `CONSUME_CLEAR_SCOPE`. -/
def consumeSlot (scope : ConsumeClearScope) (b : Block) : Block :=
  if b.evt = 0#2 then b
  else
    match scope with
    | .eventOnly => { b with evt := 0#2 }
    | .eventAndPresses =>
      { ch1 := { b.ch1 with down := false }, ch2 := { b.ch2 with down := false }, evt := 0#2 }

end Sys2Proof.Machine
end

