-- ==== Sys2Proof/Machine/Ops.lean ====
section
/-! DEFINITION. The shared operations: the start of an operation (ports and ERR), the refusal (the block's only
exception), reset, and the named updates of S. -/

namespace Sys2Proof.Machine

/-- The start of any event at the block: every port is undriven (10_state.md R26) and no Adjust is emitted. -/
def State.openPorts (s : State) : State :=
  { s with ports := Ports.undriven s.freeCount, adjust := none, freeCount := s.freeCount + 1 }

/-- `out ERR <- e`. -/
def State.driveErr (s : State) (e : ErrCode) : State :=
  { s with ports := { s.ports with err := e } }

/-- An accepted operation: ERR is 0, every other port undriven until the operation drives it (R26, R108). -/
def State.accept (s : State) : State := s.openPorts.driveErr 0#3

/-- TAKING A REFUSAL, the block's only synchronous error (60_exceptions.md R107): S is unchanged, ERR carries the
code, the other ports are unspecified, no Adjust is emitted, and the run is marked; the next operation proceeds.
Nothing is saved and nothing returns (R112, R113). -/
def State.refuse (s : State) (code : RefuseCode) : State :=
  { s.openPorts.driveErr code.err with refusalMark := true }

/-- Reset (70_reset_and_hazards.md R119): every field of S at its reset value, no port driven, no Adjust, the
configuration unchanged. -/
def State.resetBlock (s : State) : State := { s.openPorts with block := Block.reset }

/-- `S.DOWN[ch]` and `S.TS[ch]` written. -/
def State.setChan (s : State) (ch : Channel) (d : Debounce) : State :=
  { s with block := s.block.setChan ch d }

/-- `S.EVT` written. -/
def State.setEvt (s : State) (e : EventCode) : State :=
  { s with block := { s.block with evt := e } }

/-- S written whole. -/
def State.setBlock (s : State) (b : Block) : State := { s with block := b }

/-- `out PATTERN <- p`. -/
def State.drivePattern (s : State) (p : Pattern) : State :=
  { s with ports := { s.ports with pattern := p } }

/-- `out STAT <- v`. -/
def State.driveStat (s : State) (v : StatCode) : State :=
  { s with ports := { s.ports with stat := v } }

/-- `out EVT_OUT <- e`, `out ADJ <- …` and, for an event, `emit Adjust(sext_32(ADJ))` (41_debounce_edit.md R81). -/
def State.driveEvent (s : State) (e : EventCode) : State :=
  { s with ports := { s.ports with evtOut := e, adj := adjOf e }, adjust := adjustOf e }

/-- What an operation that reads `S.EVT` does: it goes on with a legal slot, and faults on the value 3
(93_implementation_defined.md U14). -/
def State.onLegalSlot (s : State) (t : State) : Host.Outcome State Fault Refusal :=
  if s.block.evt = 3#2 then .fault .illegalEventSlot else .next t

/-- POST(ch) (41_debounce_edit.md R80). -/
def State.post (s : State) (ch : Channel) : Host.Outcome State Fault Refusal :=
  s.onLegalSlot (s.setEvt (postSlot s.config.eventCollision s.block.evt (eventOf ch)))

end Sys2Proof.Machine
end

