-- ==== Sys2Proof/Machine/Debounce.lean ====
section
/-! DEFINITION. The Debounce/Edit FSM: EDGE.F, EDGE.R, CONSUME and STATUS (41_debounce_edit.md R78-R83). -/

namespace Sys2Proof.Machine

/-- EDGE.F (41_debounce_edit.md R78): from either state the press (re)starts at `ts`. -/
def execEdgeF (ch : Channel) (ts : Nat) (s : State) : Host.Outcome State Fault Refusal :=
  .next (s.accept.setChan ch { down := true, ts := timestamp s.config ts })

/-- A release on a channel that is down (41_debounce_edit.md R79): back to IDLE, `S.TS[ch]` kept (D36). -/
def release (ch : Channel) (s : State) : State :=
  s.accept.setChan ch { s.block.chan ch with down := false }

/-- Whether a release at `ts` is longer than the threshold: strictly (41_debounce_edit.md R79, R84, R85). -/
def isCleanRelease (ch : Channel) (ts : Nat) (s : State) : Bool :=
  (s.block.chan ch).down && decide (debounceMs < elapsed s.config (timestamp s.config ts) (s.block.chan ch).ts)

/-- EDGE.R (41_debounce_edit.md R79): from IDLE nothing; from DOWN back to IDLE, posting a clean release. -/
def execEdgeR (ch : Channel) (ts : Nat) (s : State) : Host.Outcome State Fault Refusal :=
  if isCleanRelease ch ts s then (release ch s).post ch
  else if (s.block.chan ch).down then .next (release ch s)
  else .next s.accept

/-- CONSUME (41_debounce_edit.md R81): the event is read and cleared in one step (20_memory.md R37), and the
edit command issued. -/
def execConsume (s : State) : Host.Outcome State Fault Refusal :=
  s.onLegalSlot ((s.accept.setBlock (consumeSlot s.config.consumeClearScope s.block)).driveEvent s.block.evt)

/-- STATUS (41_debounce_edit.md R83): no side effect on S. -/
def execStatus (s : State) : Host.Outcome State Fault Refusal :=
  s.onLegalSlot (s.accept.driveStat (statOf s.block))

end Sys2Proof.Machine
end

