-- ==== Sys2Proof/Machine/Translator.lean ====
section
/-! DEFINITION. The Word-Pattern Translator: TRANSLATE and its sub-functions (40_translator.md R61-R68). -/

namespace Sys2Proof.Machine

/-- `O_CLOCK` (40_translator.md R62). -/
def oClock : Pattern := 201326592#32

/-- `FIVE_MINUTES` (R62). -/
def fiveMinutes : Pattern := 392#32

/-- `TEN_MINUTES` (R62). -/
def tenMinutes : Pattern := 448#32

/-- `QUARTER` (R62). -/
def quarter : Pattern := 6#32

/-- `TWENTY_MINUTES` (R62). -/
def twentyMinutes : Pattern := 432#32

/-- `TWENTY_FIVE_MINUTES` (R62). -/
def twentyFiveMinutes : Pattern := 440#32

/-- `HALF` (R62). -/
def half : Pattern := 1#32

/-- `PAST` (R62). -/
def pastAffix : Pattern := 1024#32

/-- `TO` (R62). -/
def toAffix : Pattern := 512#32

/-- BUCKET, the 12-input minute multiplexer selected by `minute div 5` (40_translator.md R63). No legal minute
reaches the last line. -/
def bucket (minute : Nat) : Pattern :=
  match minute / 5 with
  | 0 => oClock
  | 1 => fiveMinutes
  | 2 => tenMinutes
  | 3 => quarter
  | 4 => twentyMinutes
  | 5 => twentyFiveMinutes
  | 6 => half
  | 7 => twentyFiveMinutes
  | 8 => twentyMinutes
  | 9 => quarter
  | 10 => tenMinutes
  | 11 => fiveMinutes
  | _ => 0#32

/-- AFFIX (40_translator.md R64). -/
def affix (minute : Nat) : Pattern :=
  if minute < 5 then 0#32 else if minute < 35 then pastAffix else toAffix

/-- EFF_HOUR (40_translator.md R65). -/
def effHour (hour minute : Nat) : Nat :=
  if 35 ≤ minute then (hour + 1) % 24 else hour

/-- TO12 (40_translator.md R67). -/
def to12 (e : Nat) : Nat :=
  if e % 12 = 0 then 12 else e % 12

/-- The entry of `HOUR_MASK` for hour H, 1 ≤ H ≤ 12 (40_translator.md R66). -/
def hourEntry (c : Config) (h : Nat) : HourShape := c.hours.get (Fin.ofNat 12 (h - 1))

/-- `HOUR_MASK[H]` (40_translator.md R66). -/
def hourMask (c : Config) (h : Nat) : Pattern := (hourEntry c h).mask

/-- The hour of the hour word shown, in 12-hour form (40_translator.md R65, R67). -/
def shownHour (hour minute : Nat) : Nat := to12 (effHour hour minute)

/-- The WordPattern of a time: the OR of the three parts (40_translator.md R61, R68). -/
def wordPattern (c : Config) (hour minute : Nat) : Pattern :=
  bucket minute ||| affix minute ||| hourMask c (shownHour hour minute)

/-- TRANSLATE (40_translator.md R61). The range refusals are checked first, in the order of 30_encoding.md R54;
S is not read and not written. -/
def execTranslate (hour : BitVec 5) (minute : BitVec 6) (s : State) : Host.Outcome State Fault Refusal :=
  if 24 ≤ hour.toNat then .next (s.refuse .hourRange)
  else if 60 ≤ minute.toNat then .next (s.refuse .minuteRange)
  else .next (s.accept.drivePattern (wordPattern s.config hour.toNat minute.toNat))

/-- `popcount(v)`: how many bits of `v` are one (00_scope.md R9). -/
def popcount {w : Nat} (v : BitVec w) : Nat :=
  (List.range w).countP (fun i => v.getLsbD i)

end Sys2Proof.Machine
end

