-- ==== Sys2Proof/Machine/Dispatch.lean ====
section
/-! DEFINITION. One arm per instruction. -/

namespace Sys2Proof.Machine

def exec (i : Instr) (s : State) : Host.Outcome State Fault Refusal :=
  match i with
  | .translate hour minute => Sys2Proof.Machine.execTranslate hour minute s
  | .edgeF ch ts => Sys2Proof.Machine.execEdgeF ch ts s
  | .edgeR ch ts => Sys2Proof.Machine.execEdgeR ch ts s
  | .consume => Sys2Proof.Machine.execConsume s
  | .status => Sys2Proof.Machine.execStatus s

end Sys2Proof.Machine
end

