-- ==== Sys2Proof/Machine/Command.lean ====
section
/-! DEFINITION. The command interface (30_encoding.md R42): one command word and its `TS` operand, decoded and
performed or refused. -/

namespace Sys2Proof.Machine

/-- One operation at the command interface: a legal word is performed, any other is refused
(30_encoding.md R56, 60_exceptions.md R107). -/
def issue (cmd : Cmd) (ts : Nat) (s : State) : Host.Outcome State Fault Refusal :=
  match decode cmd ts with
  | .ok i => exec i s
  | .error code => .next (s.refuse code)

/-- An agent issues an operation by its words (30_encoding.md R44-R47). -/
def issueInstr (i : Instr) (s : State) : Host.Outcome State Fault Refusal :=
  issue (encodeCmd i) (encodeTs i) s

end Sys2Proof.Machine
end

