-- ==== Sys2Proof/Machine/Collaborators.lean ====
section
/-! DEFINITION. The host's collaborators: the RTC's `adjust` (45_host_render_loop.md R96, R101), the bit-to-pixel
mapper (R98), the display (R99) and the diagnostic line (R100). -/

namespace Sys2Proof.Machine

/-- The minute of the day a time falls in, 0 to 1439. -/
def minuteOfDay (t : TimeOfDay) : Nat := 60 * t.hour.val + t.minute.val

/-- `adjust(d)` of the reference model (45_host_render_loop.md R101): minute of the day modulo 1440, seconds
unchanged. -/
def referenceAdjust (d : Int) (t : TimeOfDay) : TimeOfDay :=
  let m := (((minuteOfDay t : Int) + d) % 1440).toNat
  { hour := Fin.ofNat 24 (m / 60), minute := Fin.ofNat 60 (m % 60), second := t.second }

/-- `RTC.adjust(delta_minutes)` (R96): the reference model, or the real RTC, whose n-th answer is free (R101,
U10). -/
def rtcAdjust (c : Config) (n : Nat) (d : BitVec 32) (t : TimeOfDay) : TimeOfDay :=
  match c.rtcArithmetic with
  | .reference => referenceAdjust d.toInt t
  | .unknown => Config.rtcAdjust n d t

/-- EXPAND's pixel i (45_host_render_loop.md R98). -/
def pixelOf (c : Config) (p : Pattern) (i : Fin 30) : Color :=
  if p.getLsbD i.val then c.onColor else c.offColor

/-- EXPAND (45_host_render_loop.md R98): thirty pixels; bits 30 and 31 are never shown. -/
def expand (c : Config) (p : Pattern) : Vector Color 30 := Vector.ofFn (pixelOf c p)

/-- `Display.set(i, color)` (45_host_render_loop.md R99). -/
def Display.setPixel (d : Display) (i : Fin 30) (color : Color) : Display :=
  { d with buffer := d.buffer.set i.val color i.isLt }

/-- `Display.show()`: the whole buffer is flushed (45_host_render_loop.md R99). -/
def Display.flush (d : Display) : Display := { d with shown := d.buffer }

/-- The diagnostic line's text, `H:M:S` in decimal without padding (45_host_render_loop.md R100). -/
def diagnosticLine (t : TimeOfDay) : String :=
  toString t.hour.val ++ ":" ++ toString t.minute.val ++ ":" ++ toString t.second.val

end Sys2Proof.Machine
end

