-- ==== Sys2Proof/Machine/RenderLoop.lean ====
section
/-! DEFINITION. The host's thread: the boot sequence of 70_reset_and_hazards.md R122 and the render loop of
45_host_render_loop.md R95, one action at a time, so that an edge may fall between any two. -/

namespace Sys2Proof.Machine

/-- The thread goes on at another action. -/
def State.toPhase (s : State) (p : Phase) : State := { s with loop := { s.loop with phase := p } }

/-- R122 step 1: an unreachable RTC is fatal. -/
def bootRtc (s : State) : State :=
  if s.rtc.reachable then s.toPhase .bootPower else s.toPhase .halted

/-- R122 step 2: after a power loss the RTC is seeded with the default time, once. -/
def bootPower (s : State) : State :=
  if s.rtc.lostPower then { s.toPhase .bootReset with rtc := { s.rtc with time := s.config.defaultTime } }
  else s.toPhase .bootReset

/-- R122 step 3: the block is reset and `H.prev_pattern` set to the sentinel (R94). -/
def bootReset (s : State) : State :=
  { s.resetBlock with loop := { s.loop with phase := .bootEdges, prevPattern := 0#32 } }

/-- R122 step 4. -/
def bootEdges (s : State) : State :=
  { s with loop := { s.loop with phase := .consume, edgesEnabled := true } }

/-- R95 step 1: the loop copies what CONSUME returned (R126) and goes on to adjust only for an event (R96). -/
def afterConsume (t : State) : State :=
  { t with loop := { t.loop with phase := if t.ports.evtOut = 0#2 then .read else .adjust, adj := t.ports.adj } }

/-- R95 step 1, R96: `RTC.adjust(sext_32(r.ADJ))`, once. That the call works also when `rtc.reachable` was cleared
after boot is a DESIGN CHOICE (log 23: the spec gives that field an effect at startup only, R122). -/
def applyAdjust (s : State) : State :=
  { s.toPhase .read with
    rtc := { s.rtc with time := rtcAdjust s.config s.freeCount (s.loop.adj.signExtend 32) s.rtc.time }
    freeCount := s.freeCount + 1 }

/-- R95 step 2: a fresh snapshot (R102). That the read answers `rtc.time` also when `rtc.reachable` was cleared after
boot is a DESIGN CHOICE (log 23: the spec gives peripheral failures after boot no effect, 60_exceptions.md R109). -/
def readRtc (s : State) : State :=
  { s with loop := { s.loop with phase := .translate, snapshot := s.rtc.time } }

/-- The operation of R95 step 3. -/
def translateInstr (t : TimeOfDay) : Instr :=
  .translate (BitVec.ofNat 5 t.hour.val) (BitVec.ofNat 6 t.minute.val)

/-- R95 step 3: the loop copies PATTERN (R126). -/
def afterTranslate (t : State) : State :=
  { t with loop := { t.loop with phase := .compare, pattern := t.ports.pattern } }

/-- R95 steps 4 and 5: an unchanged pattern is not rendered again (R97). -/
def comparePattern (s : State) : State :=
  if s.loop.pattern = s.loop.prevPattern then s.toPhase .idle
  else { s with loop := { s.loop with phase := .setPixel 0, prevPattern := s.loop.pattern } }

/-- The action after `Display.set(i, …)`: the next pixel in index order, then `show` (R99). -/
def nextPixel (i : Fin 30) : Phase :=
  if h : i.val + 1 < 30 then .setPixel ⟨i.val + 1, h⟩ else .flush

/-- R95 step 5: `Display.set(i, px[i])`, with `px = EXPAND(p)`. The call never fails (DESIGN CHOICE, log 23). -/
def pushPixel (i : Fin 30) (s : State) : State :=
  { s.toPhase (nextPixel i) with display := s.display.setPixel i (pixelOf s.config s.loop.pattern i) }

/-- R95 step 5: `Display.show()`. The call never fails (DESIGN CHOICE, log 23). -/
def flushDisplay (s : State) : State := { s.toPhase .log with display := s.display.flush }

/-- R95 step 5, R100: one diagnostic line per display change, with the values this iteration read. -/
def writeLog (s : State) : State := { s.toPhase .consume with log := s.loop.snapshot :: s.log }

/-- Carry on with the state an operation left; a fault or a refusal stays one. -/
def andThen (o : Host.Outcome State Fault Refusal) (f : State → State) : Host.Outcome State Fault Refusal :=
  match o with
  | .next t => .next (f t)
  | .fault r => .fault r
  | .refused r => .refused r

/-- The render-loop thread's next action (R95, R122). A halted host acts no more; the idle wait ends when the
thread's next turn comes (log 13). -/
def loopAction (s : State) : Host.Outcome State Fault Refusal :=
  match s.loop.phase with
  | .bootRtc => .next (bootRtc s)
  | .bootPower => .next (bootPower s)
  | .bootReset => .next (bootReset s)
  | .bootEdges => .next (bootEdges s)
  | .consume => andThen (issueInstr .consume s) afterConsume
  | .adjust => .next (applyAdjust s)
  | .read => .next (readRtc s)
  | .translate => andThen (issueInstr (translateInstr s.loop.snapshot) s) afterTranslate
  | .compare => .next (comparePattern s)
  | .idle => .next (s.toPhase .consume)
  | .setPixel i => .next (pushPixel i s)
  | .flush => .next (flushDisplay s)
  | .log => .next (writeLog s)
  | .halted => .next s

/-- An edge notification (45_host_render_loop.md R103): one EDGE operation, once the host has enabled the edge
source (R122 step 4; before that nothing is delivered, log 14). -/
def edgeNotification (ch : Channel) (e : Edge) (ts : Nat) (s : State) : Host.Outcome State Fault Refusal :=
  if s.loop.edgesEnabled then issueInstr (e.instr ch ts) s else .next s

/-- Power goes and returns (60_exceptions.md R118): the block is at its reset values, the host boots again and the
display is as at power-up, since the RTC's data are "the only durable state" (45_host_render_loop.md R102,
20_memory.md R31). The lines already written and the refusal mark are records of the run and stay (log 15). -/
def powerCycle (s : State) : State := { s.resetBlock with loop := Loop.reset, display := Display.reset }

end Sys2Proof.Machine
end

