-- ==== Sys2Proof/Machine/Step.lean ====
section
/-! DEFINITION. One step: the next turn of the interleaving, whole (20_memory.md R33, R35). -/

namespace Sys2Proof.Machine

/-- One turn, taken by the agent it names. The event and the Adjust of a CONSUME that a `command` turn gives go to
its issuer: the host's thread, which adjusts the RTC for its own CONSUME only (45_host_render_loop.md R96), does not
see them, and no rule says what that issuer does with them (DESIGN CHOICE, log 24). A `reset` turn is the block's
reset (70_reset_and_hazards.md R119, R121): that it leaves the host's loop as it is, `H.prev_pattern` and the enabled
edge source too, is a DESIGN CHOICE (log 26). -/
def takeTurn (t : Turn) (s : State) : Host.Outcome State Fault Refusal :=
  match t with
  | .command cmd ts => issue cmd ts s
  | .edge ch e ts => edgeNotification ch e ts s
  | .loop => loopAction s
  | .reset => .next s.resetBlock
  | .powerCycle => .next (powerCycle s)
  | .rtc r => .next { s with rtc := r }

/-- One step of the machine: the first turn of the interleaving, or, when no turn is given, the render loop's
next action: it runs forever (45_host_render_loop.md R95; log 2). -/
def step (s : State) : Host.Outcome State Fault Refusal :=
  match s.turns with
  | [] => loopAction s
  | t :: rest => takeTurn t { s with turns := rest }

/-- The host gives the block this operation next (30_encoding.md R42; log 1): `CMD` is bits 15..0 of the `nbits`
bits `w`, the `TS` operand word the bits from 16 on. -/
def State.withFetchWord (s : State) (nbits w : Nat) : State :=
  { s with
    turns := .command (BitVec.ofNat 16 (w % 2 ^ nbits)) (w % 2 ^ nbits / 2 ^ 16) :: s.turns }

end Sys2Proof.Machine
end

