-- ==== Sys2Proof/Machine/Assembler.lean ====
section
/-! DEFINITION. The assembler syntax of 30_encoding.md R57 and the pseudo-instruction PRESS of R58: one line of
text to the operations it stands for. Blanks separate words, a comma stands between operands (log 20). -/

namespace Sys2Proof.Machine

/-- A finished word, if one is open. -/
def closeWord (word : List Char) : List (List Char) :=
  if word.isEmpty then [] else [word]

/-- The words of a line; a comma is a word of its own, and `;` starts a comment (R57). -/
def lineWords (word : List Char) : List Char → List (List Char)
  | [] => closeWord word
  | c :: cs =>
    if c = ';' then closeWord word
    else if c = ' ' ∨ c = '\t' then closeWord word ++ lineWords [] cs
    else if c = ',' then closeWord word ++ [','] :: lineWords [] cs
    else lineWords (word ++ [c]) cs

/-- The value of a digit in a base up to 16. -/
def digitValue (base : Nat) (c : Char) : Option Nat :=
  let n := c.toNat
  let v :=
    if 48 ≤ n ∧ n ≤ 57 then n - 48
    else if 97 ≤ n ∧ n ≤ 102 then n - 87
    else if 65 ≤ n ∧ n ≤ 70 then n - 55
    else base
  if v < base then some v else none

/-- The value of a row of digits after `acc`. -/
def digitsValue (base acc : Nat) : List Char → Option Nat
  | [] => some acc
  | c :: cs =>
    match digitValue base c with
    | some v => digitsValue base (acc * base + v) cs
    | none => none

/-- "Numbers are decimal unless they carry `0x`" (R57). -/
def numberWord : List Char → Option Nat
  | [] => none
  | '0' :: 'x' :: c :: cs => digitsValue 16 0 (c :: cs)
  | cs => digitsValue 10 0 cs

/-- `b1` or `b2` (R57). -/
def channelWord : List Char → Option Channel
  | ['b', '1'] => some .ch1
  | ['b', '2'] => some .ch2
  | _ => none

/-- `TRANSLATE <hour>, <minute>` with hour 0..23 and minute 0..59 (R57). That the two may also be written after `0x`
is a DESIGN CHOICE (log 20): R57 says "decimal" beside this line, and of all numbers "unless they carry `0x`". -/
def translateLine (h m : List Char) : Option (List Instr) :=
  match numberWord h, numberWord m with
  | some hour, some minute =>
    if hour < 24 ∧ minute < 60 then some [.translate (BitVec.ofNat 5 hour) (BitVec.ofNat 6 minute)] else none
  | _, _ => none

/-- `EDGE.F b<1|2>, <ts>` and `EDGE.R b<1|2>, <ts>` (R57). -/
def edgeLine (e : Edge) (b t : List Char) : Option (List Instr) :=
  match channelWord b, numberWord t with
  | some ch, some ts => some [e.instr ch ts]
  | _, _ => none

/-- `PRESS b<c>, <t0>, <t1>` (R58). -/
def pressLine (b t0 t1 : List Char) : Option (List Instr) :=
  match channelWord b, numberWord t0, numberWord t1 with
  | some ch, some a, some z => some (press ch a z)
  | _, _, _ => none

/-- The operations of a line's words: none for text that is no line of R57 or R58, the empty list for a line
that holds no operation. -/
def assembleWords : List (List Char) → Option (List Instr)
  | [] => some []
  | [op] =>
    if op = "CONSUME".toList then some [.consume]
    else if op = "STATUS".toList then some [.status]
    else none
  | [op, a, [','], b] =>
    if op = "TRANSLATE".toList then translateLine a b
    else if op = "EDGE.F".toList then edgeLine .falling a b
    else if op = "EDGE.R".toList then edgeLine .rising a b
    else none
  | [op, a, [','], b, [','], c] => if op = "PRESS".toList then pressLine a b c else none
  | _ => none

/-- Assemble one line (R57, R58). -/
def assembleLine (line : String) : Option (List Instr) := assembleWords (lineWords [] line.toList)

/-- A number as R57 writes it: in decimal, or in hexadecimal after `0x`. -/
def numberText (hex : Bool) (n : Nat) : String :=
  if hex then "0x" ++ String.ofList (Nat.toDigits 16 n) else String.ofList (Nat.toDigits 10 n)

/-- A channel as R57 writes it. -/
def channelText : Channel → String
  | .ch1 => "b1"
  | .ch2 => "b2"

/-- An operation as a line of R57. -/
def instrText (hex : Bool) : Instr → String
  | .translate hour minute => "TRANSLATE " ++ numberText hex hour.toNat ++ ", " ++ numberText hex minute.toNat
  | .edgeF ch ts => "EDGE.F " ++ channelText ch ++ ", " ++ numberText hex ts
  | .edgeR ch ts => "EDGE.R " ++ channelText ch ++ ", " ++ numberText hex ts
  | .consume => "CONSUME"
  | .status => "STATUS"

/-- `PRESS b<c>, <t0>, <t1>` as a line of R58. -/
def pressText (hex : Bool) (ch : Channel) (t0 t1 : Nat) : String :=
  "PRESS " ++ channelText ch ++ ", " ++ numberText hex t0 ++ ", " ++ numberText hex t1

end Sys2Proof.Machine
end

