-- ==== Sys2Proof/Safety.lean ====
section
/-! DEFINITION. The terms the statements use: the legal states of 10_state.md R24, what a step must keep of the
display, the frame of an operation, and runs of operations with what they post and consume. -/

namespace Sys2Proof.Machine

/-- The legal states of 10_state.md R24: `S.EVT ∈ {0, 1, 2}` and `S.TS[ch] < 2 ^ TS_W`. -/
abbrev Legal (s : State) : Prop :=
  s.block.evt ≠ 3#2 ∧ s.block.ch1.ts < 2 ^ s.config.tsWidth ∧ s.block.ch2.ts < 2 ^ s.config.tsWidth

/-- What an operation at the block leaves alone: the configuration, the turns to come, the refusal mark and all of
the host. -/
abbrev HostUnchanged (s t : State) : Prop :=
  t.config = s.config ∧ t.turns = s.turns ∧ t.refusalMark = s.refusalMark ∧ t.loop = s.loop ∧
    t.rtc = s.rtc ∧ t.display = s.display ∧ t.log = s.log

/-- What the strip and the buffer hold, by the loop's position (45_host_render_loop.md R95, R98, R99): during a
push the pixels below the next one are those of the new pattern, and outside a push the strip shows EXPAND of
`H.prev_pattern`, unless nothing was pushed yet. -/
abbrev DisplayFollows (s : State) : Prop :=
  match s.loop.phase with
  | .setPixel i =>
    s.loop.pattern = s.loop.prevPattern ∧
      ∀ j : Fin 30, j.val < i.val → s.display.buffer[j] = pixelOf s.config s.loop.prevPattern j
  | .flush => s.display.buffer = expand s.config s.loop.prevPattern
  | _ => s.loop.prevPattern = 0#32 ∨ s.display.shown = expand s.config s.loop.prevPattern

/-- A run of operations, one after the other, stopping at the first fault or refusal. -/
def runInstrs : List Instr → State → Host.Outcome State Fault Refusal
  | [], s => .next s
  | i :: is, s =>
    match exec i s with
    | .next t => runInstrs is t
    | .fault r => .fault r
    | .refused r => .refused r

/-- A run of the whole machine: `k` steps from a state, stopping at the first fault or refusal. -/
def runSteps : Nat → State → Host.Outcome State Fault Refusal
  | 0, s => .next s
  | k + 1, s =>
    match step s with
    | .next t => runSteps k t
    | .fault r => .fault r
    | .refused r => .refused r

/-- The state after the first `k` turns of an infinite interleaving of the agents (20_memory.md R35). -/
def runInterleaving (σ : Nat → Turn) (k : Nat) (s : State) : Host.Outcome State Fault Refusal :=
  runSteps k { s with turns := (List.range k).map σ }

/-- Weak fairness of the render-loop agent (45_host_render_loop.md R106, D26). No operation of another agent ever
makes the thread wait (20_memory.md R35), so it can always act, and weak fairness says that its turn comes again and
again (log 25). -/
def WeaklyFair (σ : Nat → Turn) : Prop := ∀ n, ∃ m, n ≤ m ∧ σ m = .loop

/-- Whether an operation is an EDGE.R on a channel that posts: POST is invoked (41_debounce_edit.md R79). -/
def postsOn (ch : Channel) (i : Instr) (s : State) : Bool :=
  match i with
  | .edgeR c ts => decide (c = ch) && isCleanRelease c ts s
  | .translate _ _ => false
  | .edgeF _ _ => false
  | .consume => false
  | .status => false

/-- How many operations of a run post on a channel. -/
def countPosts (ch : Channel) : List Instr → State → Nat
  | [], _ => 0
  | i :: is, s =>
    match exec i s with
    | .next t => (if postsOn ch i s then 1 else 0) + countPosts ch is t
    | .fault _ => 0
    | .refused _ => 0

/-- Whether a CONSUME answered `EVT_OUT = ch`: an operation and the state it left. -/
def consumedOn (ch : Channel) (i : Instr) (t : State) : Bool := decide (i = .consume ∧ t.ports.evtOut = eventOf ch)

/-- How many CONSUMEs of a run answer `EVT_OUT = ch`. -/
def countConsumed (ch : Channel) : List Instr → State → Nat
  | [], _ => 0
  | i :: is, s =>
    match exec i s with
    | .next t => (if consumedOn ch i t then 1 else 0) + countConsumed ch is t
    | .fault _ => 0
    | .refused _ => 0

/-- The presses of a bounce train on one channel: one EDGE.F and EDGE.R for each pair of timestamps. -/
def pressTrain (ch : Channel) : List (Nat × Nat) → List Instr
  | [] => []
  | p :: ps => press ch p.1 p.2 ++ pressTrain ch ps

/-- A number below 100 in decimal without zero-padding, digit by digit (45_host_render_loop.md R100). -/
def twoDigits (n : Nat) : List Char :=
  if n < 10 then [Char.ofNat (48 + n)] else [Char.ofNat (48 + n / 10), Char.ofNat (48 + n % 10)]

/-- The pattern of the time the RTC now shows. -/
def patternNow (s : State) : Pattern := wordPattern s.config s.rtc.time.hour.val s.rtc.time.minute.val

end Sys2Proof.Machine
end

