-- ==== Sys2Proof/Certificates/Slice0/Obligations.lean ====
section
/-! DEFINITION. The statements for the provers. Each docstring names the passage of spec/ it formalises. -/

open Sys2Proof Sys2Proof.Machine

/-! ### Encoding -/

/-- 30_encoding.md section 2 (formats T, E, C, S) against the decoder of section 5: every well-formed
instruction, with every operand its encoding admits, is read back from its words. -/
def Obligations.DecodeReadsBackEncode : Prop :=
  ∀ i : Instr, i.wellFormed = true → decode (encodeCmd i) (encodeTs i) = .ok i

/-- 30_encoding.md section 2: a word the decoder accepts is the word of the instruction it stands for, which is
well-formed and carries the whole `TS` operand where the operation reads it. -/
def Obligations.AcceptedWordHasOneMeaning : Prop :=
  ∀ (cmd : Cmd) (ts : Nat) (i : Instr), decode cmd ts = .ok i →
    encodeCmd i = cmd ∧ i.wellFormed = true ∧
      (∀ ch n, (i = .edgeF ch n ∨ i = .edgeR ch n) → n = ts)

/-- 30_encoding.md section 5, the opcode map: "A word is legal when `(CMD & mask) = match` and its range
conditions hold." The decoder accepts exactly the legal words, and as the row that covers them. -/
def Obligations.DecoderAcceptsOpcodeMap : Prop :=
  ∀ (cmd : Cmd) (ts : Nat) (r : OpRow), r ∈ opcodeMap →
    ((∃ i, decode cmd ts = .ok i ∧ i.row = r) ↔
      (r.covers cmd = true ∧
        (r.mnemonic = "TRANSLATE" →
          (cmd.extractLsb' 6 5).toNat < 24 ∧ (cmd.extractLsb' 0 6).toNat < 60)))

/-- 30_encoding.md section 5: the decoder of the pseudocode refuses with the code of the ordered list, first match
wins, and refuses no other word. -/
def Obligations.DecoderRefusesInOrder : Prop :=
  ∀ (cmd : Cmd) (ts : Nat), refusalOf cmd = match decode cmd ts with
    | .ok _ => none
    | .error code => some code

/-- 30_encoding.md section 5, the sentence "It accepts exactly 1440 + 4 + 1 + 1 = 1446 of the 65536 words", which
the spec marks as derived. -/
def Obligations.DecoderAccepts1446Words : Prop :=
  ((List.range 65536).filter (fun w => (decode (BitVec.ofNat 16 w) 0).toOption.isSome)).length = 1446

/-- Words of 95_test_vectors.md table V4, one for each operation and channel. -/
def Obligations.SpecWordsDecode : Prop :=
  decode 0x05FB#16 0 = .ok (.translate 23#5 59#6) ∧ decode 0x2000#16 1000 = .ok (.edgeF .ch1 1000) ∧
    decode 0x3000#16 7 = .ok (.edgeF .ch2 7) ∧ decode 0x2800#16 1120 = .ok (.edgeR .ch1 1120) ∧
    decode 0x3800#16 300 = .ok (.edgeR .ch2 300) ∧ decode 0x4000#16 0 = .ok .consume ∧
    decode 0x6000#16 0 = .ok .status ∧ decode 0x07FF#16 0 = .error .hourRange

/-- 30_encoding.md section 6: a line the assembler accepts yields only operations that have a command word; the text
of each well-formed operation, with its numbers in decimal or after `0x`, and with or without a comment, assembles to
that operation; and PRESS assembles to EDGE.F and EDGE.R, in that order (details of the text, and that TRANSLATE's
hour and minute may stand after `0x`, are the model's choices, log 20). -/
def Obligations.AssembledOperationsAreWellFormed : Prop :=
  (∀ (line : String) (is : List Instr), assembleLine line = some is → ∀ i ∈ is, i.wellFormed = true) ∧
  (∀ (hex : Bool) (tail : String), (tail = "" ∨ ∃ note, tail = ";" ++ note) →
    (∀ i : Instr, i.wellFormed = true → assembleLine (instrText hex i ++ tail) = some [i]) ∧
    (∀ (ch : Channel) (t0 t1 : Nat),
      assembleLine (pressText hex ch t0 t1 ++ tail) = some [.edgeF ch t0, .edgeR ch t1]))

/-! ### The step and the command interface -/

/-- 30_encoding.md section 1 and 20_memory.md section 2: when a given command word decodes to an instruction, the
step is that instruction's meaning, and takes that turn from the interleaving. -/
def Obligations.StepRunsDecodedCommand : Prop :=
  ∀ (s : State) (cmd : Cmd) (ts : Nat) (rest : List Turn) (i : Instr),
    s.turns = .command cmd ts :: rest → decode cmd ts = .ok i →
      step s = exec i { s with turns := rest }

/-- 45_host_render_loop.md section 4: an edge notification is one EDGE operation on its channel, once the host has
enabled the edge source; before that the step only takes the turn (the model's choice, log 14). -/
def Obligations.StepRunsEdgeNotification : Prop :=
  ∀ (s : State) (ch : Channel) (e : Edge) (ts : Nat) (rest : List Turn),
    s.turns = .edge ch e ts :: rest →
      step s = (if s.loop.edgesEnabled = true
        then exec (match e with | .falling => .edgeF ch ts | .rising => .edgeR ch ts) { s with turns := rest }
        else .next { s with turns := rest })

/-- 60_exceptions.md sections 1 and 3: a refused word leaves S and the host as they were, drives its code on ERR,
emits no Adjust and marks the run (that the run goes on is the model's reading, log 7). -/
def Obligations.RefusedWordChangesNoState : Prop :=
  ∀ (s : State) (cmd : Cmd) (ts : Nat) (rest : List Turn) (code : RefuseCode),
    s.turns = .command cmd ts :: rest → decode cmd ts = .error code →
      ∃ t, step s = .next t ∧ t.block = s.block ∧ t.ports.err = code.err ∧ t.adjust = none ∧
        t.refusalMark = true ∧ t.config = s.config ∧ t.turns = rest ∧ t.loop = s.loop ∧ t.rtc = s.rtc ∧
        t.display = s.display ∧ t.log = s.log

/-- 60_exceptions.md section 1, the table of codes: a command drives ERR 0 exactly when its word is accepted, and
never one of 5 to 7. MODEL'S CHOICE: that a refused word is answered with a next state is log 7 (DEDUCED; R107 also
says that a model gives a refused operation no meaning). -/
def Obligations.ErrTellsAcceptance : Prop :=
  ∀ (s : State) (cmd : Cmd) (ts : Nat), s.block.evt ≠ 3#2 →
    ∃ t, issue cmd ts s = .next t ∧ t.ports.err.toNat ≤ 4 ∧
      (t.ports.err = 0#3 ↔ ∃ i, decode cmd ts = .ok i)

/-- 60_exceptions.md section 1: "A legal EDGE.F, EDGE.R, CONSUME or STATUS never fails either", nor a legal
TRANSLATE, in any state whose slot is legal. -/
def Obligations.LegalOperationNeverFails : Prop :=
  ∀ (i : Instr) (s : State), i.wellFormed = true → s.block.evt ≠ 3#2 →
    ∃ t, exec i s = .next t ∧ t.ports.err = 0#3 ∧ HostUnchanged s t

/-- 10_state.md section 5: no operation reads a result port: what the ports and the Adjust of earlier operations
were makes no difference to any step. -/
def Obligations.PortsAreNotReadBack : Prop :=
  ∀ (s : State) (p : Ports) (a : Option (BitVec 32)) (t : State), step s = .next t →
    ∃ u, step { s with ports := p, adjust := a } = .next u ∧ u.block = t.block ∧ u.config = t.config ∧
      u.refusalMark = t.refusalMark ∧ u.turns = t.turns ∧ u.loop = t.loop ∧ u.rtc = t.rtc ∧
      u.display = t.display ∧ u.log = t.log

/-! ### The translator -/

/-- 40_translator.md section 4: every legal TRANSLATE is accepted and yields a PATTERN, whatever HOUR_MASK is,
with the composition of section 1; S and the host are untouched. -/
def Obligations.TranslateYieldsPattern : Prop :=
  ∀ (hour : BitVec 5) (minute : BitVec 6) (s : State), hour.toNat < 24 → minute.toNat < 60 →
    ∃ t, exec (.translate hour minute) s = .next t ∧
      t.ports.pattern = bucket minute.toNat ||| affix minute.toNat |||
        hourMask s.config (to12 (effHour hour.toNat minute.toNat)) ∧
      t.ports.err = 0#3 ∧ t.adjust = none ∧ t.block = s.block ∧ HostUnchanged s t

/-- 40_translator.md section 1, exceptions: an hour or a minute out of range is refused, the hour first; S and the
host are untouched and the run is marked. MODEL'S CHOICES: that `exec` makes this check on a TRANSLATE term, which no
word decodes to, is log 19 (DEDUCED), and that the refusal is a next state is log 7 (DEDUCED). -/
def Obligations.TranslateRefusesOutOfRange : Prop :=
  ∀ (hour : BitVec 5) (minute : BitVec 6) (s : State), 24 ≤ hour.toNat ∨ 60 ≤ minute.toNat →
    ∃ t, exec (.translate hour minute) s = .next t ∧
      t.ports.err = (if 24 ≤ hour.toNat then 3#3 else 4#3) ∧ t.block = s.block ∧ t.adjust = none ∧
      t.refusalMark = true ∧ t.config = s.config ∧ t.turns = s.turns ∧ t.loop = s.loop ∧ t.rtc = s.rtc ∧
      t.display = s.display ∧ t.log = s.log

/-- 40_translator.md section 2, the table: the nine masks in decimal and in hexadecimal, the bits each sets, and the
unions of the two groups. -/
def Obligations.MaskLiterals : Prop :=
  (oClock = 201326592#32 ∧ fiveMinutes = 392#32 ∧ tenMinutes = 448#32 ∧ quarter = 6#32 ∧
    twentyMinutes = 432#32 ∧ twentyFiveMinutes = 440#32 ∧ half = 1#32 ∧ pastAffix = 1024#32 ∧
    toAffix = 512#32) ∧
  (oClock = 0x0C000000#32 ∧ fiveMinutes = 0x188#32 ∧ tenMinutes = 0x1C0#32 ∧ quarter = 0x6#32 ∧
    twentyMinutes = 0x1B0#32 ∧ twentyFiveMinutes = 0x1B8#32 ∧ half = 0x1#32 ∧ pastAffix = 0x400#32 ∧
    toAffix = 0x200#32) ∧
  (∀ i : Fin 32,
    (oClock.getLsbD i = decide (i.val ∈ [26, 27])) ∧ (fiveMinutes.getLsbD i = decide (i.val ∈ [3, 7, 8])) ∧
    (tenMinutes.getLsbD i = decide (i.val ∈ [6, 7, 8])) ∧ (quarter.getLsbD i = decide (i.val ∈ [1, 2])) ∧
    (twentyMinutes.getLsbD i = decide (i.val ∈ [4, 5, 7, 8])) ∧
    (twentyFiveMinutes.getLsbD i = decide (i.val ∈ [3, 4, 5, 7, 8])) ∧
    (half.getLsbD i = decide (i.val ∈ [0])) ∧ (pastAffix.getLsbD i = decide (i.val ∈ [10])) ∧
    (toAffix.getLsbD i = decide (i.val ∈ [9]))) ∧
  oClock ||| fiveMinutes ||| tenMinutes ||| quarter ||| twentyMinutes ||| twentyFiveMinutes ||| half
    = 0x0C0001FF#32 ∧
  pastAffix ||| toAffix = 0x600#32

/-- 40_translator.md section 3: the minute multiplexer, by the source's intervals. -/
def Obligations.BucketFollowsIntervals : Prop :=
  ∀ minute : Nat, minute < 60 →
    (minute < 5 → bucket minute = oClock) ∧
    ((5 ≤ minute ∧ minute < 10) ∨ 55 ≤ minute → bucket minute = fiveMinutes) ∧
    ((10 ≤ minute ∧ minute < 15) ∨ (50 ≤ minute ∧ minute < 55) → bucket minute = tenMinutes) ∧
    ((15 ≤ minute ∧ minute < 20) ∨ (45 ≤ minute ∧ minute < 50) → bucket minute = quarter) ∧
    ((20 ≤ minute ∧ minute < 25) ∨ (40 ≤ minute ∧ minute < 45) → bucket minute = twentyMinutes) ∧
    ((25 ≤ minute ∧ minute < 30) ∨ (35 ≤ minute ∧ minute < 40) → bucket minute = twentyFiveMinutes) ∧
    (30 ≤ minute ∧ minute < 35 → bucket minute = half)

/-- 40_translator.md section 3, AFFIX, EFF_HOUR and TO12, each by the source's words. -/
def Obligations.AffixAndShownHour : Prop :=
  (∀ minute : Nat, (minute < 5 → affix minute = 0#32) ∧ (5 ≤ minute → minute < 35 → affix minute = 1024#32) ∧
    (35 ≤ minute → affix minute = 512#32)) ∧
  (∀ hour minute : Nat, (affix minute = toAffix → effHour hour minute = (hour + 1) % 24) ∧
    (affix minute ≠ toAffix → effHour hour minute = hour)) ∧
  (∀ e : Nat, (e % 12 = 0 → to12 e = 12) ∧ (e % 12 ≠ 0 → to12 e = e % 12))

/-- 40_translator.md section 3, the hour table: every configuration's masks meet the four constraints, and every
table of entries that meet them is the table of some configuration. -/
def Obligations.HourTableIsAnyConformingOne : Prop :=
  (∀ (c : Config) (h : Nat), 1 ≤ h → h ≤ 12 → ∃ w sh : Nat, (w = 1 ∨ w = 2) ∧ 11 ≤ sh ∧ sh + w ≤ 32 ∧
    hourMask c h = ((1#32 <<< w) - 1#32) <<< sh ∧ hourMask c h &&& 0x0C0007FF#32 = 0#32) ∧
  (∀ (c : Config) (w sh : Nat → Nat), (∀ h, 1 ≤ h → h ≤ 12 → HourShape.Legal (w h) (sh h)) →
    ∃ c' : Config, c'.tsWidth = c.tsWidth ∧ ∀ h, 1 ≤ h → h ≤ 12 →
      hourMask c' h = ((1#32 <<< w h) - 1#32) <<< sh h)

/-- 40_translator.md section 3, the composition: the three parts share no bit, so that the OR is their sum. -/
def Obligations.PatternPartsAreDisjoint : Prop :=
  ∀ (c : Config) (hour minute : Nat), hour < 24 → minute < 60 →
    wordPattern c hour minute = bucket minute ||| affix minute ||| hourMask c (shownHour hour minute) ∧
    bucket minute &&& affix minute = 0#32 ∧ bucket minute &&& hourMask c (shownHour hour minute) = 0#32 ∧
    affix minute &&& hourMask c (shownHour hour minute) = 0#32 ∧
    (wordPattern c hour minute).toNat =
      (bucket minute).toNat + (affix minute).toNat + (hourMask c (shownHour hour minute)).toNat

/-- 40_translator.md section 4, the bucket invariant (the spec marks it as derived): the bucket bits of PATTERN are
exactly the minute's bucket mask, and the seven masks differ. -/
def Obligations.PatternHoldsOneBucket : Prop :=
  (∀ (hour : BitVec 5) (minute : BitVec 6) (s : State), hour.toNat < 24 → minute.toNat < 60 →
    ∃ t, exec (.translate hour minute) s = .next t ∧
      t.ports.pattern &&& 0x0C0001FF#32 = bucket minute.toNat ∧
      bucket minute.toNat ∈
        [oClock, fiveMinutes, tenMinutes, quarter, twentyMinutes, twentyFiveMinutes, half]) ∧
  [oClock, fiveMinutes, tenMinutes, quarter, twentyMinutes, twentyFiveMinutes, half].Nodup

/-- 40_translator.md section 4, the affix invariant (the spec marks it as derived). -/
def Obligations.PatternHoldsOneAffix : Prop :=
  ∀ (hour : BitVec 5) (minute : BitVec 6) (s : State), hour.toNat < 24 → minute.toNat < 60 →
    ∃ t, exec (.translate hour minute) s = .next t ∧
      t.ports.pattern &&& 0x600#32 =
        (if minute.toNat < 5 then 0#32 else if minute.toNat < 35 then 0x400#32 else 0x200#32)

/-- 40_translator.md section 4, the idiom law (the spec marks it as derived): from minute 35 on the hour word is the
next hour's, and it is what is left of PATTERN outside the bucket and affix bits. -/
def Obligations.PatternHoldsIdiomaticHour : Prop :=
  ∀ (hour : BitVec 5) (minute : BitVec 6) (s : State), hour.toNat < 24 → minute.toNat < 60 →
    ∃ t, exec (.translate hour minute) s = .next t ∧
      t.ports.pattern &&& ~~~0x0C0007FF#32 =
        (if 35 ≤ minute.toNat then hourMask s.config (to12 ((hour.toNat + 1) % 24))
         else hourMask s.config (to12 hour.toNat))

/-- 40_translator.md section 4, the pattern shape (the spec marks it as derived): how many bits are set, between 3
and 8, and so never none. -/
def Obligations.PatternShape : Prop :=
  ∀ (c : Config) (hour minute : Nat), hour < 24 → minute < 60 →
    popcount (wordPattern c hour minute) =
      popcount (bucket minute) + popcount (affix minute) + (hourEntry c (shownHour hour minute)).width ∧
    3 ≤ popcount (wordPattern c hour minute) ∧ popcount (wordPattern c hour minute) ≤ 8 ∧
    wordPattern c hour minute ≠ 0#32

/-- 40_translator.md section 4, recovery (the spec marks it as derived): outside the hour word, two patterns agree
exactly when the minutes lie in one five-minute slot, under any two hours and any two hour tables. -/
def Obligations.PatternTellsFiveMinuteSlot : Prop :=
  ∀ (c c' : Config) (hour hour' minute minute' : Nat), hour < 24 → hour' < 24 → minute < 60 → minute' < 60 →
    (wordPattern c hour minute &&& 0x0C0007FF#32 = wordPattern c' hour' minute' &&& 0x0C0007FF#32 ↔
      minute / 5 = minute' / 5)

/-- 40_translator.md section 4, purity: PATTERN is a function of the two operands and the configuration alone;
nothing of S, of the host or of time enters it, and S is not written. -/
def Obligations.TranslateIsPure : Prop :=
  ∀ (hour : BitVec 5) (minute : BitVec 6) (s u : State), hour.toNat < 24 → minute.toNat < 60 →
    s.config = u.config →
      ∃ t v, exec (.translate hour minute) s = .next t ∧ exec (.translate hour minute) u = .next v ∧
        t.ports.pattern = v.ports.pattern ∧ t.block = s.block ∧ v.block = u.block

/-- 95_test_vectors.md tables V1 and V2: the translator equals a twelve-entry table of the bits outside the hour
word, with the hour word chosen by the hour modulo 12. -/
def Obligations.TranslatorEqualsTwelveEntryTable : Prop :=
  ∀ (c : Config) (hour minute : Nat), hour < 24 → minute < 60 →
    wordPattern c hour minute =
      BitVec.ofNat 32
        ([201326592, 1416, 1472, 1030, 1456, 1464, 1025, 952, 944, 518, 960, 904].getD (minute / 5) 0) |||
      hourMask c (if minute / 5 < 7 then (hour + 11) % 12 + 1 else hour % 12 + 1)

/-! ### The debounce and edit FSM -/

/-- 41_debounce_edit.md section 2, EDGE.F: from any state of the channel, `DOWN(ts)`; nothing else of S changes. -/
def Obligations.FallingEdgeStartsPress : Prop :=
  ∀ (ch : Channel) (ts : Nat) (s : State),
    ∃ t, exec (.edgeF ch ts) s = .next t ∧
      t.block.chan ch = { down := true, ts := ts % 2 ^ s.config.tsWidth } ∧
      (∀ other, other ≠ ch → t.block.chan other = s.block.chan other) ∧ t.block.evt = s.block.evt ∧
      t.ports.err = 0#3 ∧ t.adjust = none ∧ HostUnchanged s t

/-- 41_debounce_edit.md sections 1 and 2, EDGE.R: back to IDLE with `S.TS[ch]` kept; a release of more than 50 ms
posts, by the collision policy; a shorter one, and one from IDLE, posts nothing. -/
def Obligations.RisingEdgeEndsPress : Prop :=
  ∀ (ch : Channel) (ts : Nat) (s : State), s.block.evt ≠ 3#2 →
    ∃ t, exec (.edgeR ch ts) s = .next t ∧
      t.block.chan ch = { down := false, ts := (s.block.chan ch).ts } ∧
      (∀ other, other ≠ ch → t.block.chan other = s.block.chan other) ∧
      t.block.evt =
        (if (s.block.chan ch).down = true ∧
            50 < ((ts : Int) - (s.block.chan ch).ts) % ((2 ^ s.config.tsWidth : Nat) : Int) then
          (if s.block.evt = 0#2 ∨ s.config.eventCollision = .overwrite
           then (match ch with | .ch1 => 1#2 | .ch2 => 2#2) else s.block.evt)
        else s.block.evt) ∧
      t.ports.err = 0#3 ∧ t.adjust = none ∧ HostUnchanged s t

/-- 41_debounce_edit.md section 2, EDGE.R where POST is not invoked: the slot is not touched. MODEL'S CHOICE: that it
completes also where the slot holds the value 3 is the model's reading of 93_implementation_defined.md U14, log 8
(DEDUCED). -/
def Obligations.BounceCompletesWithAnySlot : Prop :=
  ∀ (ch : Channel) (ts : Nat) (s : State),
    ((s.block.chan ch).down = false ∨
      ((ts : Int) - (s.block.chan ch).ts) % ((2 ^ s.config.tsWidth : Nat) : Int) ≤ 50) →
    ∃ t, exec (.edgeR ch ts) s = .next t ∧
      t.block = s.block.setChan ch { s.block.chan ch with down := false } ∧ t.ports.err = 0#3 ∧
      t.adjust = none ∧ HostUnchanged s t

/-- 41_debounce_edit.md section 2, CONSUME: the event is returned and cleared in one step, the edit command issued,
and under `event_and_presses` both presses cancelled; with no event nothing changes. -/
def Obligations.ConsumeReturnsAndClears : Prop :=
  ∀ s : State, s.block.evt ≠ 3#2 →
    ∃ t, exec .consume s = .next t ∧ t.ports.evtOut = s.block.evt ∧ t.block.evt = 0#2 ∧
      t.ports.adj = (if s.block.evt = 1#2 then 0x05#7 else if s.block.evt = 2#2 then 0x7B#7 else 0x00#7) ∧
      t.adjust = (if s.block.evt = 1#2 then some 5#32
        else if s.block.evt = 2#2 then some (BitVec.ofInt 32 (-5)) else none) ∧
      (∀ ch, (t.block.chan ch).ts = (s.block.chan ch).ts ∧
        (t.block.chan ch).down =
          (if s.block.evt ≠ 0#2 ∧ s.config.consumeClearScope = .eventAndPresses then false
           else (s.block.chan ch).down)) ∧
      t.ports.err = 0#3 ∧ HostUnchanged s t

/-- 41_debounce_edit.md section 2, STATUS: the four status bits, and no side effect. -/
def Obligations.StatusShowsSlotAndPresses : Prop :=
  ∀ s : State, s.block.evt ≠ 3#2 →
    ∃ t, exec .status s = .next t ∧ t.ports.stat.extractLsb' 0 2 = s.block.evt ∧
      t.ports.stat.getLsbD 2 = s.block.ch1.down ∧ t.ports.stat.getLsbD 3 = s.block.ch2.down ∧
      t.block = s.block ∧ t.ports.err = 0#3 ∧ t.adjust = none ∧ HostUnchanged s t

/-- 93_implementation_defined.md section 1, the entry on `S.EVT = 3`: each operation that reads the slot faults on
it (which operations these are is the model's reading, log 8). -/
def Obligations.IllegalSlotFaults : Prop :=
  ∀ s : State, s.block.evt = 3#2 →
    exec .consume s = .fault .illegalEventSlot ∧ exec .status s = .fault .illegalEventSlot ∧
      ∀ (ch : Channel) (ts : Nat), (s.block.chan ch).down = true →
        50 < ((ts : Int) - (s.block.chan ch).ts) % ((2 ^ s.config.tsWidth : Nat) : Int) →
          exec (.edgeR ch ts) s = .fault .illegalEventSlot

/-- 41_debounce_edit.md section 3: the elapsed time is the unsigned subtraction at the width of the timestamp, which
wraps, so a press of true duration D is timed as D modulo 2^TS_W, and a difference that TS_W bits hold exactly. -/
def Obligations.ElapsedIsWrappingSubtraction : Prop :=
  ∀ (c : Config) (ts t d : Nat),
    elapsed c ts t = (BitVec.ofNat c.tsWidth ts - BitVec.ofNat c.tsWidth t).toNat ∧
      elapsed c ts t < 2 ^ c.tsWidth ∧ elapsed c (t + d) t = d % 2 ^ c.tsWidth

/-- 41_debounce_edit.md section 4, timestamps taken on trust: an EDGE operation whose timestamp is wider than TS_W
bits does what the same operation does with the timestamp modulo 2^TS_W. -/
def Obligations.TimestampCountsModuloWidth : Prop :=
  ∀ (ch : Channel) (ts : Nat) (s : State),
    exec (.edgeF ch ts) s = exec (.edgeF ch (ts % 2 ^ s.config.tsWidth)) s ∧
      exec (.edgeR ch ts) s = exec (.edgeR ch (ts % 2 ^ s.config.tsWidth)) s

/-- 41_debounce_edit.md section 3, the threshold: a press posts exactly when its elapsed time is above 50, whatever
the channel's state before it; what the slot then holds follows the collision policy. -/
def Obligations.PressPostsAboveThreshold : Prop :=
  ∀ (ch : Channel) (t0 t1 : Nat) (s : State), s.block.evt ≠ 3#2 →
    ∃ t, runInstrs (press ch t0 t1) s = .next t ∧ (t.block.chan ch).down = false ∧
      countPosts ch (press ch t0 t1) s = (if 50 < elapsed s.config t1 t0 then 1 else 0) ∧
      t.block.evt =
        (if 50 < elapsed s.config t1 t0 ∧ (s.block.evt = 0#2 ∨ s.config.eventCollision = .overwrite)
         then eventOf ch else s.block.evt)

/-- 41_debounce_edit.md section 4, bounce trains (the spec marks the rule as derived): presses of at most 50 ms leave
the slot alone, and a press above it that ends the train is the only one that posts. -/
def Obligations.BounceTrainPostsOnce : Prop :=
  ∀ (ch : Channel) (ps : List (Nat × Nat)) (s : State),
    (∀ p ∈ ps, elapsed s.config p.2 p.1 ≤ 50) →
      (∃ t, runInstrs (pressTrain ch ps) s = .next t ∧ t.block.evt = s.block.evt ∧
        (∀ other, other ≠ ch → t.block.chan other = s.block.chan other)) ∧
      countPosts ch (pressTrain ch ps) s = 0 ∧
      (∀ t0 t1 : Nat, 50 < elapsed s.config t1 t0 → s.block.evt = 0#2 →
        countPosts ch (pressTrain ch ps ++ press ch t0 t1) s = 1 ∧
        ∃ t, runInstrs (pressTrain ch ps ++ press ch t0 t1) s = .next t ∧ t.block.evt = eventOf ch)

/-- 41_debounce_edit.md section 4, channel independence (the spec marks the rule as derived): edges of the two
channels may be applied in either order, unless both post into the shared slot. -/
def Obligations.EdgesOfTwoChannelsCommute : Prop :=
  ∀ (e e' : Edge) (ts ts' : Nat) (s : State), s.block.evt ≠ 3#2 →
    ¬ (postsOn .ch1 (e.instr .ch1 ts) s = true ∧ postsOn .ch2 (e'.instr .ch2 ts') s = true) →
      ∃ t u, runInstrs [e.instr .ch1 ts, e'.instr .ch2 ts'] s = .next t ∧
        runInstrs [e'.instr .ch2 ts', e.instr .ch1 ts] s = .next u ∧ t.block = u.block

/-- 41_debounce_edit.md section 4, at most one edit per release (the spec marks the rule as derived): an operation
that returns a channel's event or leaves it pending had it pending before or posted it; so in any run the CONSUMEs
that return a channel's event are no more than the releases that posted on it, and one for an event already pending
at the start. -/
def Obligations.AtMostOneEditPerRelease : Prop :=
  (∀ (ch : Channel) (i : Instr) (s t : State), exec i s = .next t →
    (if consumedOn ch i t = true then 1 else 0) + (if t.block.evt = eventOf ch then 1 else 0) ≤
      (if postsOn ch i s = true then 1 else 0) + (if s.block.evt = eventOf ch then 1 else 0)) ∧
  (∀ (ch : Channel) (is : List Instr) (s : State),
    countConsumed ch is s ≤ countPosts ch is s + (if s.block.evt = eventOf ch then 1 else 0))

/-- 20_memory.md section 2, the writers of each field: only a release that posts fills the slot and only CONSUME
empties it; only the EDGE operations of a channel, and a CONSUME under `event_and_presses`, change its press. -/
def Obligations.OnlyTheseOperationsWriteS : Prop :=
  ∀ (i : Instr) (s t : State), exec i s = .next t →
    (t.block.evt ≠ s.block.evt →
      (∃ ch ts, i = .edgeR ch ts ∧ postsOn ch i s = true ∧ t.block.evt = eventOf ch) ∨
      (i = .consume ∧ t.block.evt = 0#2)) ∧
    (∀ ch, t.block.chan ch ≠ s.block.chan ch →
      (∃ ts, i = .edgeF ch ts) ∨ (∃ ts, i = .edgeR ch ts ∧ (s.block.chan ch).down = true) ∨
      (i = .consume ∧ s.block.evt ≠ 0#2 ∧ s.config.consumeClearScope = .eventAndPresses))

/-- 41_debounce_edit.md section 4, events can be lost (the spec marks the rule as derived): of two clean releases
with no CONSUME between them, one is returned, by the collision policy, and then none. -/
def Obligations.CollisionLosesOneEvent : Prop :=
  ∀ (ch other : Channel) (ts ts' : Nat) (s : State), ch ≠ other → s.block.evt = 0#2 →
    isCleanRelease ch ts s = true → isCleanRelease other ts' s = true →
      ∃ t u, runInstrs [.edgeR ch ts, .edgeR other ts', .consume] s = .next t ∧
        t.ports.evtOut = (match s.config.eventCollision with
          | .overwrite => eventOf other
          | .drop => eventOf ch) ∧
        exec .consume t = .next u ∧ u.ports.evtOut = 0#2 ∧ u.adjust = none

/-- 41_debounce_edit.md section 2, CONSUME's corner cases: a press in progress survives a CONSUME that took an event
under `event_only`; under `event_and_presses` its rising edge finds IDLE and posts nothing. -/
def Obligations.ClearScopeDecidesPressInProgress : Prop :=
  ∀ (ch : Channel) (ts : Nat) (s : State), s.block.evt ≠ 0#2 → s.block.evt ≠ 3#2 →
    isCleanRelease ch ts s = true →
      ∃ t, runInstrs [.consume, .edgeR ch ts] s = .next t ∧
        t.block.evt = (match s.config.consumeClearScope with
          | .eventOnly => eventOf ch
          | .eventAndPresses => 0#2)

/-- 20_memory.md section 3: a posting release is either before a CONSUME and consumed by it, or after it and left
for the next; none is lost between the read and the clear. -/
def Obligations.PostIsConsumedOrLeft : Prop :=
  ∀ (ch : Channel) (ts : Nat) (s : State), s.block.evt = 0#2 → isCleanRelease ch ts s = true →
    (∃ t, runInstrs [.edgeR ch ts, .consume] s = .next t ∧ t.ports.evtOut = eventOf ch ∧ t.block.evt = 0#2) ∧
    (∃ t u, exec .consume s = .next t ∧ t.ports.evtOut = 0#2 ∧ exec (.edgeR ch ts) t = .next u ∧
      u.block.evt = eventOf ch)

/-- 20_memory.md section 4: STATUS and TRANSLATE issued twice answer twice the same, EDGE.F repeated leaves the same
S, and of two CONSUMEs the second returns no event. -/
def Obligations.RepeatedOperations : Prop :=
  ∀ (s : State), s.block.evt ≠ 3#2 →
    (∃ t u, exec .status s = .next t ∧ exec .status t = .next u ∧ u.ports.stat = t.ports.stat) ∧
    (∀ (hour : BitVec 5) (minute : BitVec 6), hour.toNat < 24 → minute.toNat < 60 →
      ∃ t u, exec (.translate hour minute) s = .next t ∧ exec (.translate hour minute) t = .next u ∧
        u.ports.pattern = t.ports.pattern) ∧
    (∀ (ch : Channel) (ts : Nat), ∃ t u, exec (.edgeF ch ts) s = .next t ∧ exec (.edgeF ch ts) t = .next u ∧
      u.block = t.block) ∧
    (∃ t u, exec .consume s = .next t ∧ exec .consume t = .next u ∧ u.ports.evtOut = 0#2 ∧
      u.block = t.block)

/-- 41_debounce_edit.md section 4, the two parts share no state (the spec marks the rule as derived): no operation
changes a later TRANSLATE's PATTERN, and TRANSLATE changes nothing of S, also where it is refused (60_exceptions.md
section 1). MODEL'S CHOICES: a TRANSLATE term out of range, which no word decodes to, is refused too (log 19,
DEDUCED), and a refusal is a next state (log 7, DEDUCED). -/
def Obligations.TranslatorAndFsmAreSeparate : Prop :=
  (∀ (i : Instr) (s t : State) (hour : BitVec 5) (minute : BitVec 6), exec i s = .next t →
    hour.toNat < 24 → minute.toNat < 60 →
      ∃ u v, exec (.translate hour minute) s = .next u ∧ exec (.translate hour minute) t = .next v ∧
        v.ports.pattern = u.ports.pattern) ∧
  (∀ (s : State) (hour : BitVec 5) (minute : BitVec 6),
    ∃ u, exec (.translate hour minute) s = .next u ∧ u.block = s.block)

/-! ### Reset and invariants -/

/-- 70_reset_and_hazards.md section 1 and 10_state.md section 4: every field of S is 0 after reset (values the spec
chose), no Adjust is emitted; and a reset turn does so from every state and leaves the configuration, the host and
the refusal mark (that the host's loop keeps `H.prev_pattern` and the rest is the model's choice, log 26).
60_exceptions.md section 4 (R118): a power cycle does the same to S, and of the rest only the RTC's
data survive; that the loop and the display are then as at power-up, and what these values are, is the model's
choice, and so is that the mark and the lines written stay (logs 10 and 15). -/
def Obligations.ResetClearsBlock : Prop :=
  (∀ ch, State.reset.block.chan ch = { down := false, ts := 0 }) ∧ State.reset.block.evt = 0#2 ∧
    State.reset.adjust = none ∧
  (∀ (s : State) (rest : List Turn), s.turns = .reset :: rest →
    ∃ t, step s = .next t ∧ (∀ ch, t.block.chan ch = { down := false, ts := 0 }) ∧ t.block.evt = 0#2 ∧
      t.adjust = none ∧ t.config = s.config ∧ t.turns = rest ∧ t.refusalMark = s.refusalMark ∧
      t.loop = s.loop ∧ t.rtc = s.rtc ∧ t.display = s.display ∧ t.log = s.log) ∧
  (∀ (s : State) (rest : List Turn), s.turns = .powerCycle :: rest →
    ∃ t, step s = .next t ∧ (∀ ch, t.block.chan ch = { down := false, ts := 0 }) ∧ t.block.evt = 0#2 ∧
      t.adjust = none ∧ t.rtc = s.rtc ∧ t.loop = State.reset.loop ∧ t.display = State.reset.display ∧
      t.config = s.config ∧ t.turns = rest ∧ t.refusalMark = s.refusalMark ∧ t.log = s.log)

/-- 10_state.md section 3 (the legal states) and 45_host_render_loop.md section 2: the machine after reset meets both
invariants below. -/
def Obligations.ResetMeetsInvariants : Prop := Legal State.reset ∧ DisplayFollows State.reset

/-- 10_state.md section 3 (the spec marks the rule as derived): whatever turn is taken, from whatever legal state, the
next state is legal: no operation writes the slot value 3 or a timestamp wider than TS_W. -/
def Obligations.StepKeepsLegal : Prop :=
  ∀ s t : State, Legal s → step s = .next t → Legal t

/-- 60_exceptions.md section 1, no legal operation fails: from a legal state no run of any turns ever stops, and it
stays in legal states. MODEL'S CHOICES: the runs with refused words go on by log 7 (DEDUCED; R107 itself says that a
claim about a command stream holds only for streams with no refused word), and an edge before the edge source is
enabled only takes its turn by log 14 (DEDUCED). -/
def Obligations.LegalRunNeverStops : Prop :=
  ∀ (k : Nat) (s : State), Legal s → ∃ t, runSteps k s = .next t ∧ Legal t

/-- 10_state.md section 3 (the configuration is fixed when the hardware is built) and 60_exceptions.md section 1 (the
refusal mark is kept for the rest of the run). -/
def Obligations.ConfigurationAndMarkAreKept : Prop :=
  ∀ (k : Nat) (s t : State), runSteps k s = .next t →
    t.config = s.config ∧ (s.refusalMark = true → t.refusalMark = true)

/-! ### The host: boot, render loop, display -/

/-- 70_reset_and_hazards.md section 2: the boot sequence; an unreachable RTC halts the host for good before any
display activity. -/
def Obligations.BootReachesRenderLoop : Prop :=
  ∀ s : State, s.turns = [] → s.loop.phase = .bootRtc →
    (s.rtc.reachable = true →
      ∃ t, runSteps 4 s = .next t ∧ t.loop.phase = .consume ∧ t.block = Block.reset ∧
        t.loop.prevPattern = 0#32 ∧ t.loop.edgesEnabled = true ∧
        t.rtc.time = (if s.rtc.lostPower = true then s.config.defaultTime else s.rtc.time) ∧
        t.display = s.display ∧ t.log = s.log) ∧
    (s.rtc.reachable = false →
      ∀ k, ∃ t, runSteps (k + 1) s = .next t ∧ t.loop.phase = .halted ∧ t.block = s.block ∧
        t.rtc = s.rtc ∧ t.display = s.display ∧ t.log = s.log)

/-- 45_host_render_loop.md section 2, applying an edit: when CONSUME returns an event the host calls adjust once with
+5 or −5, before it reads the time; with the reference RTC the clock then moves by five minutes. The number of the
call is the model's own (logs 6 and 11), and so is that the call does not fail after boot (log 23). -/
def Obligations.EventAdjustsClockOnce : Prop :=
  ∀ (s : State) (ch : Channel), s.turns = [] → s.loop.phase = .consume → s.block.evt = eventOf ch →
    ∃ t, runSteps 2 s = .next t ∧ t.loop.phase = .read ∧ t.block.evt = 0#2 ∧
      t.rtc.time = rtcAdjust s.config (s.freeCount + 1)
        (match ch with | .ch1 => 5#32 | .ch2 => BitVec.ofInt 32 (-5)) s.rtc.time ∧
      (s.config.rtcArithmetic = .reference →
        (minuteOfDay t.rtc.time : Int) =
            ((minuteOfDay s.rtc.time : Int) + (match ch with | .ch1 => 5 | .ch2 => -5)) % 1440 ∧
          t.rtc.time.second = s.rtc.time.second)

/-- 45_host_render_loop.md section 4, the reference RTC: adjust is addition to the minute of the day modulo 1440, the
seconds unchanged. -/
def Obligations.ReferenceAdjustIsModular : Prop :=
  ∀ (d : Int) (t : TimeOfDay),
    (minuteOfDay (referenceAdjust d t) : Int) = ((minuteOfDay t : Int) + d) % 1440 ∧
      (referenceAdjust d t).second = t.second

/-- 45_host_render_loop.md section 3, EXPAND: pixel i is the ON colour if bit i of the pattern is set, else the OFF
colour, and so bits 30 and 31 are never shown. MODEL'S ASSUMPTION: that patterns which differ below bit 30 expand
differently rests on the two colours being distinct, log 12 (DEDUCED from D29). -/
def Obligations.ExpandShowsThirtyBits : Prop :=
  (∀ (c : Config) (p : Pattern) (i : Fin 30),
    (expand c p)[i] = (if p.getLsbD i.val = true then c.onColor else c.offColor)) ∧
  (∀ (c : Config) (p q : Pattern),
    (expand c p = expand c q ↔ p &&& 0x3FFFFFFF#32 = q &&& 0x3FFFFFFF#32))

/-- 45_host_render_loop.md sections 2 and 3: a changed pattern is pushed by thirty sets in index order and one show,
with one diagnostic line, the hour, minute and second read in decimal without padding; afterwards the strip shows
EXPAND of the pattern, and the block is untouched. The count of actions is the model's own (log 9), and so is that no
call fails (log 23). -/
def Obligations.ChangedPatternIsPushed : Prop :=
  (∀ s : State, s.turns = [] → s.loop.phase = .compare → s.loop.pattern ≠ s.loop.prevPattern →
    ∃ t, runSteps 33 s = .next t ∧ t.loop.phase = .consume ∧ t.loop.prevPattern = s.loop.pattern ∧
      t.display.shown = expand s.config s.loop.pattern ∧ t.log = s.loop.snapshot :: s.log ∧
      t.log.map diagnosticLine = diagnosticLine s.loop.snapshot :: s.log.map diagnosticLine ∧
      t.block = s.block ∧ t.rtc = s.rtc) ∧
  (∀ time : TimeOfDay, (diagnosticLine time).toList =
    twoDigits time.hour.val ++ [':'] ++ twoDigits time.minute.val ++ [':'] ++ twoDigits time.second.val)

/-- 45_host_render_loop.md section 5, the throttle law. First: however many iterations a run holds and whatever turns
fall between their actions but a power cycle, as long as the hour and the minute stay as they were at its start it
completes at most one push, and none where the strip's pattern is already that of the time. Second: two consecutive
iterations into which no turn falls do complete, and the second pushes nothing (the number of actions is the model's
own: log 9, and log 13 for the idle wait; that no read or push fails is log 23, and that a reset turn leaves
`H.prev_pattern` is log 26). -/
def Obligations.TwoIterationsPushAtMostOnce : Prop :=
  (∀ (k : Nat) (s t : State), s.loop.phase = .consume → .powerCycle ∉ s.turns →
    (∀ j u, j ≤ k → runSteps j s = .next u →
      u.rtc.time.hour = s.rtc.time.hour ∧ u.rtc.time.minute = s.rtc.time.minute) →
    runSteps k s = .next t → t.log.length ≤ s.log.length + 1 ∧
      (patternNow s = s.loop.prevPattern → t.log = s.log ∧ t.display = s.display)) ∧
  (∀ s : State, s.turns = [] → s.loop.phase = .consume → s.block.evt = 0#2 →
    ∃ t, runSteps (if patternNow s = s.loop.prevPattern then 5 else 36) s = .next t ∧
      t.loop.phase = .consume ∧ t.log.length ≤ s.log.length + 1 ∧
      ∀ r : Rtc, r.time.hour = s.rtc.time.hour → r.time.minute = s.rtc.time.minute →
        ∃ u, runSteps 5 { t with rtc := r } = .next u ∧ u.loop.phase = .consume ∧ u.log = t.log ∧
          u.display = t.display)

/-- 45_host_render_loop.md section 5, the first iteration (the spec marks the rule as derived): with `H.prev_pattern`
at the sentinel, the iteration always goes on to push (that its read does not fail is the model's choice, log 23). -/
def Obligations.FirstIterationPushes : Prop :=
  ∀ s : State, s.turns = [] → s.loop.phase = .consume → s.loop.prevPattern = 0#32 → s.block.evt ≠ 3#2 →
    ∃ k t, k ≤ 5 ∧ runSteps k s = .next t ∧ t.loop.phase = .setPixel 0 ∧
      t.loop.prevPattern = patternNow t ∧ t.loop.prevPattern ≠ 0#32

/-- 45_host_render_loop.md section 5, "Iterations therefore end, and the loop never does". First: left to itself, the
thread is back at the start of an iteration after at most 37 actions, unless the host is halted. Second: under the
weak fairness of the render loop that the rule asks for, and whatever other turns fall between but a power cycle,
iterations end again and again. MODEL'S CHOICES: the rule gives no number; 37 comes from one action a turn (log 9),
the idle wait as one action (log 13) and the loop acting when no turn is given (log 2); fairness as turns that come
again and again is log 25, that no call blocks or fails is log 23, and that a reset turn leaves the loop is log 26. -/
def Obligations.IterationsEnd : Prop :=
  (∀ s : State, s.turns = [] → s.block.evt ≠ 3#2 → s.loop.phase ≠ .halted →
    (s.loop.phase = .bootRtc → s.rtc.reachable = true) →
      ∃ k t, 0 < k ∧ k ≤ 37 ∧ runSteps k s = .next t ∧ t.loop.phase = .consume ∧ t.turns = []) ∧
  (∀ (σ : Nat → Turn) (s : State), WeaklyFair σ → (∀ n, σ n ≠ .powerCycle) → s.block.evt ≠ 3#2 →
    s.loop.phase ≠ .halted → s.loop.phase ≠ .bootRtc →
      ∀ n, ∃ m t u, n ≤ m ∧ runInterleaving σ m s = .next t ∧ t.loop.phase ≠ .consume ∧
        runInterleaving σ (m + 1) s = .next u ∧ u.loop.phase = .consume)

/-- 45_host_render_loop.md sections 2 and 3: whatever turns fall between the loop's actions, the buffer follows the
push, and outside a push the strip shows EXPAND of `H.prev_pattern`, once something was pushed (that no `set` or
`show` fails, and that a reset turn leaves the loop, are the model's choices, logs 23 and 26). -/
def Obligations.StepKeepsDisplayFollows : Prop :=
  ∀ s t : State, DisplayFollows s → step s = .next t → DisplayFollows t

/-- 00_scope.md section 1 and 45_host_render_loop.md section 2, end to end: one clean press while the loop is about to
consume adjusts the clock once, in the button's direction, by five minutes with the reference RTC, and the strip then
shows the pattern of the new time. The real RTC's arithmetic is open: the answer is that of the call with the number
the model gives it (logs 6 and 11); that no call fails is log 23, and the bound of 39 steps is the model's (logs 2, 9
and 13). -/
def Obligations.CleanPressMovesClockAndDisplay : Prop :=
  ∀ (s : State) (ch : Channel) (t0 t1 : Nat),
    s.turns = [.edge ch .falling t0, .edge ch .rising t1] → s.loop.phase = .consume →
    s.loop.edgesEnabled = true → s.block.evt = 0#2 → 50 < elapsed s.config t1 t0 → DisplayFollows s →
      ∃ k u, k ≤ 39 ∧ runSteps k s = .next u ∧ u.loop.phase = .consume ∧ u.turns = [] ∧
        u.block.evt = 0#2 ∧
        u.rtc.time = rtcAdjust s.config (s.freeCount + 3)
          (match ch with | .ch1 => 5#32 | .ch2 => BitVec.ofInt 32 (-5)) s.rtc.time ∧
        (s.config.rtcArithmetic = .reference →
          (minuteOfDay u.rtc.time : Int) =
              ((minuteOfDay s.rtc.time : Int) + (match ch with | .ch1 => 5 | .ch2 => -5)) % 1440 ∧
            u.rtc.time.second = s.rtc.time.second) ∧
        u.display.shown = expand s.config (patternNow u)
end

