-- ==== Sys2Proof/Laws/State.lean ====
section
/-! SUPPORT. One lemma per field per update of State, each true by rfl, and the small lemmas of S's accessors. -/

namespace Sys2Proof.Machine

variable (s : State)

@[simp] theorem State.openPorts_config : (s.openPorts).config = s.config := rfl
@[simp] theorem State.openPorts_block : (s.openPorts).block = s.block := rfl
@[simp] theorem State.openPorts_ports : (s.openPorts).ports = Ports.undriven s.freeCount := rfl
@[simp] theorem State.openPorts_adjust : (s.openPorts).adjust = none := rfl
@[simp] theorem State.openPorts_refusalMark : (s.openPorts).refusalMark = s.refusalMark := rfl
@[simp] theorem State.openPorts_freeCount : (s.openPorts).freeCount = s.freeCount + 1 := rfl
@[simp] theorem State.openPorts_turns : (s.openPorts).turns = s.turns := rfl
@[simp] theorem State.openPorts_loop : (s.openPorts).loop = s.loop := rfl
@[simp] theorem State.openPorts_rtc : (s.openPorts).rtc = s.rtc := rfl
@[simp] theorem State.openPorts_display : (s.openPorts).display = s.display := rfl
@[simp] theorem State.openPorts_log : (s.openPorts).log = s.log := rfl

@[simp] theorem State.driveErr_config (e : ErrCode) : (s.driveErr e).config = s.config := rfl
@[simp] theorem State.driveErr_block (e : ErrCode) : (s.driveErr e).block = s.block := rfl
@[simp] theorem State.driveErr_ports (e : ErrCode) : (s.driveErr e).ports = { s.ports with err := e } := rfl
@[simp] theorem State.driveErr_adjust (e : ErrCode) : (s.driveErr e).adjust = s.adjust := rfl
@[simp] theorem State.driveErr_refusalMark (e : ErrCode) : (s.driveErr e).refusalMark = s.refusalMark := rfl
@[simp] theorem State.driveErr_freeCount (e : ErrCode) : (s.driveErr e).freeCount = s.freeCount := rfl
@[simp] theorem State.driveErr_turns (e : ErrCode) : (s.driveErr e).turns = s.turns := rfl
@[simp] theorem State.driveErr_loop (e : ErrCode) : (s.driveErr e).loop = s.loop := rfl
@[simp] theorem State.driveErr_rtc (e : ErrCode) : (s.driveErr e).rtc = s.rtc := rfl
@[simp] theorem State.driveErr_display (e : ErrCode) : (s.driveErr e).display = s.display := rfl
@[simp] theorem State.driveErr_log (e : ErrCode) : (s.driveErr e).log = s.log := rfl

@[simp] theorem State.accept_config : (s.accept).config = s.config := rfl
@[simp] theorem State.accept_block : (s.accept).block = s.block := rfl
@[simp] theorem State.accept_ports : (s.accept).ports = { Ports.undriven s.freeCount with err := 0#3 } := rfl
@[simp] theorem State.accept_adjust : (s.accept).adjust = none := rfl
@[simp] theorem State.accept_refusalMark : (s.accept).refusalMark = s.refusalMark := rfl
@[simp] theorem State.accept_freeCount : (s.accept).freeCount = s.freeCount + 1 := rfl
@[simp] theorem State.accept_turns : (s.accept).turns = s.turns := rfl
@[simp] theorem State.accept_loop : (s.accept).loop = s.loop := rfl
@[simp] theorem State.accept_rtc : (s.accept).rtc = s.rtc := rfl
@[simp] theorem State.accept_display : (s.accept).display = s.display := rfl
@[simp] theorem State.accept_log : (s.accept).log = s.log := rfl

@[simp] theorem State.refuse_config (c : RefuseCode) : (s.refuse c).config = s.config := rfl
@[simp] theorem State.refuse_block (c : RefuseCode) : (s.refuse c).block = s.block := rfl
@[simp] theorem State.refuse_ports (c : RefuseCode) : (s.refuse c).ports = { Ports.undriven s.freeCount with err := c.err } := rfl
@[simp] theorem State.refuse_adjust (c : RefuseCode) : (s.refuse c).adjust = none := rfl
@[simp] theorem State.refuse_refusalMark (c : RefuseCode) : (s.refuse c).refusalMark = true := rfl
@[simp] theorem State.refuse_freeCount (c : RefuseCode) : (s.refuse c).freeCount = s.freeCount + 1 := rfl
@[simp] theorem State.refuse_turns (c : RefuseCode) : (s.refuse c).turns = s.turns := rfl
@[simp] theorem State.refuse_loop (c : RefuseCode) : (s.refuse c).loop = s.loop := rfl
@[simp] theorem State.refuse_rtc (c : RefuseCode) : (s.refuse c).rtc = s.rtc := rfl
@[simp] theorem State.refuse_display (c : RefuseCode) : (s.refuse c).display = s.display := rfl
@[simp] theorem State.refuse_log (c : RefuseCode) : (s.refuse c).log = s.log := rfl

@[simp] theorem State.resetBlock_config : (s.resetBlock).config = s.config := rfl
@[simp] theorem State.resetBlock_block : (s.resetBlock).block = Block.reset := rfl
@[simp] theorem State.resetBlock_ports : (s.resetBlock).ports = Ports.undriven s.freeCount := rfl
@[simp] theorem State.resetBlock_adjust : (s.resetBlock).adjust = none := rfl
@[simp] theorem State.resetBlock_refusalMark : (s.resetBlock).refusalMark = s.refusalMark := rfl
@[simp] theorem State.resetBlock_freeCount : (s.resetBlock).freeCount = s.freeCount + 1 := rfl
@[simp] theorem State.resetBlock_turns : (s.resetBlock).turns = s.turns := rfl
@[simp] theorem State.resetBlock_loop : (s.resetBlock).loop = s.loop := rfl
@[simp] theorem State.resetBlock_rtc : (s.resetBlock).rtc = s.rtc := rfl
@[simp] theorem State.resetBlock_display : (s.resetBlock).display = s.display := rfl
@[simp] theorem State.resetBlock_log : (s.resetBlock).log = s.log := rfl

@[simp] theorem State.setChan_config (ch : Channel) (d : Debounce) : (s.setChan ch d).config = s.config := rfl
@[simp] theorem State.setChan_block (ch : Channel) (d : Debounce) : (s.setChan ch d).block = s.block.setChan ch d := rfl
@[simp] theorem State.setChan_ports (ch : Channel) (d : Debounce) : (s.setChan ch d).ports = s.ports := rfl
@[simp] theorem State.setChan_adjust (ch : Channel) (d : Debounce) : (s.setChan ch d).adjust = s.adjust := rfl
@[simp] theorem State.setChan_refusalMark (ch : Channel) (d : Debounce) : (s.setChan ch d).refusalMark = s.refusalMark := rfl
@[simp] theorem State.setChan_freeCount (ch : Channel) (d : Debounce) : (s.setChan ch d).freeCount = s.freeCount := rfl
@[simp] theorem State.setChan_turns (ch : Channel) (d : Debounce) : (s.setChan ch d).turns = s.turns := rfl
@[simp] theorem State.setChan_loop (ch : Channel) (d : Debounce) : (s.setChan ch d).loop = s.loop := rfl
@[simp] theorem State.setChan_rtc (ch : Channel) (d : Debounce) : (s.setChan ch d).rtc = s.rtc := rfl
@[simp] theorem State.setChan_display (ch : Channel) (d : Debounce) : (s.setChan ch d).display = s.display := rfl
@[simp] theorem State.setChan_log (ch : Channel) (d : Debounce) : (s.setChan ch d).log = s.log := rfl

@[simp] theorem State.setEvt_config (e : EventCode) : (s.setEvt e).config = s.config := rfl
@[simp] theorem State.setEvt_block (e : EventCode) : (s.setEvt e).block = { s.block with evt := e } := rfl
@[simp] theorem State.setEvt_ports (e : EventCode) : (s.setEvt e).ports = s.ports := rfl
@[simp] theorem State.setEvt_adjust (e : EventCode) : (s.setEvt e).adjust = s.adjust := rfl
@[simp] theorem State.setEvt_refusalMark (e : EventCode) : (s.setEvt e).refusalMark = s.refusalMark := rfl
@[simp] theorem State.setEvt_freeCount (e : EventCode) : (s.setEvt e).freeCount = s.freeCount := rfl
@[simp] theorem State.setEvt_turns (e : EventCode) : (s.setEvt e).turns = s.turns := rfl
@[simp] theorem State.setEvt_loop (e : EventCode) : (s.setEvt e).loop = s.loop := rfl
@[simp] theorem State.setEvt_rtc (e : EventCode) : (s.setEvt e).rtc = s.rtc := rfl
@[simp] theorem State.setEvt_display (e : EventCode) : (s.setEvt e).display = s.display := rfl
@[simp] theorem State.setEvt_log (e : EventCode) : (s.setEvt e).log = s.log := rfl

@[simp] theorem State.setBlock_config (b : Block) : (s.setBlock b).config = s.config := rfl
@[simp] theorem State.setBlock_block (b : Block) : (s.setBlock b).block = b := rfl
@[simp] theorem State.setBlock_ports (b : Block) : (s.setBlock b).ports = s.ports := rfl
@[simp] theorem State.setBlock_adjust (b : Block) : (s.setBlock b).adjust = s.adjust := rfl
@[simp] theorem State.setBlock_refusalMark (b : Block) : (s.setBlock b).refusalMark = s.refusalMark := rfl
@[simp] theorem State.setBlock_freeCount (b : Block) : (s.setBlock b).freeCount = s.freeCount := rfl
@[simp] theorem State.setBlock_turns (b : Block) : (s.setBlock b).turns = s.turns := rfl
@[simp] theorem State.setBlock_loop (b : Block) : (s.setBlock b).loop = s.loop := rfl
@[simp] theorem State.setBlock_rtc (b : Block) : (s.setBlock b).rtc = s.rtc := rfl
@[simp] theorem State.setBlock_display (b : Block) : (s.setBlock b).display = s.display := rfl
@[simp] theorem State.setBlock_log (b : Block) : (s.setBlock b).log = s.log := rfl

@[simp] theorem State.drivePattern_config (p : Pattern) : (s.drivePattern p).config = s.config := rfl
@[simp] theorem State.drivePattern_block (p : Pattern) : (s.drivePattern p).block = s.block := rfl
@[simp] theorem State.drivePattern_ports (p : Pattern) : (s.drivePattern p).ports = { s.ports with pattern := p } := rfl
@[simp] theorem State.drivePattern_adjust (p : Pattern) : (s.drivePattern p).adjust = s.adjust := rfl
@[simp] theorem State.drivePattern_refusalMark (p : Pattern) : (s.drivePattern p).refusalMark = s.refusalMark := rfl
@[simp] theorem State.drivePattern_freeCount (p : Pattern) : (s.drivePattern p).freeCount = s.freeCount := rfl
@[simp] theorem State.drivePattern_turns (p : Pattern) : (s.drivePattern p).turns = s.turns := rfl
@[simp] theorem State.drivePattern_loop (p : Pattern) : (s.drivePattern p).loop = s.loop := rfl
@[simp] theorem State.drivePattern_rtc (p : Pattern) : (s.drivePattern p).rtc = s.rtc := rfl
@[simp] theorem State.drivePattern_display (p : Pattern) : (s.drivePattern p).display = s.display := rfl
@[simp] theorem State.drivePattern_log (p : Pattern) : (s.drivePattern p).log = s.log := rfl

@[simp] theorem State.driveStat_config (v : StatCode) : (s.driveStat v).config = s.config := rfl
@[simp] theorem State.driveStat_block (v : StatCode) : (s.driveStat v).block = s.block := rfl
@[simp] theorem State.driveStat_ports (v : StatCode) : (s.driveStat v).ports = { s.ports with stat := v } := rfl
@[simp] theorem State.driveStat_adjust (v : StatCode) : (s.driveStat v).adjust = s.adjust := rfl
@[simp] theorem State.driveStat_refusalMark (v : StatCode) : (s.driveStat v).refusalMark = s.refusalMark := rfl
@[simp] theorem State.driveStat_freeCount (v : StatCode) : (s.driveStat v).freeCount = s.freeCount := rfl
@[simp] theorem State.driveStat_turns (v : StatCode) : (s.driveStat v).turns = s.turns := rfl
@[simp] theorem State.driveStat_loop (v : StatCode) : (s.driveStat v).loop = s.loop := rfl
@[simp] theorem State.driveStat_rtc (v : StatCode) : (s.driveStat v).rtc = s.rtc := rfl
@[simp] theorem State.driveStat_display (v : StatCode) : (s.driveStat v).display = s.display := rfl
@[simp] theorem State.driveStat_log (v : StatCode) : (s.driveStat v).log = s.log := rfl

@[simp] theorem State.driveEvent_config (e : EventCode) : (s.driveEvent e).config = s.config := rfl
@[simp] theorem State.driveEvent_block (e : EventCode) : (s.driveEvent e).block = s.block := rfl
@[simp] theorem State.driveEvent_ports (e : EventCode) : (s.driveEvent e).ports = { s.ports with evtOut := e, adj := adjOf e } := rfl
@[simp] theorem State.driveEvent_adjust (e : EventCode) : (s.driveEvent e).adjust = adjustOf e := rfl
@[simp] theorem State.driveEvent_refusalMark (e : EventCode) : (s.driveEvent e).refusalMark = s.refusalMark := rfl
@[simp] theorem State.driveEvent_freeCount (e : EventCode) : (s.driveEvent e).freeCount = s.freeCount := rfl
@[simp] theorem State.driveEvent_turns (e : EventCode) : (s.driveEvent e).turns = s.turns := rfl
@[simp] theorem State.driveEvent_loop (e : EventCode) : (s.driveEvent e).loop = s.loop := rfl
@[simp] theorem State.driveEvent_rtc (e : EventCode) : (s.driveEvent e).rtc = s.rtc := rfl
@[simp] theorem State.driveEvent_display (e : EventCode) : (s.driveEvent e).display = s.display := rfl
@[simp] theorem State.driveEvent_log (e : EventCode) : (s.driveEvent e).log = s.log := rfl

@[simp] theorem powerCycle_config : (powerCycle s).config = s.config := rfl
@[simp] theorem powerCycle_block : (powerCycle s).block = Block.reset := rfl
@[simp] theorem powerCycle_ports : (powerCycle s).ports = Ports.undriven s.freeCount := rfl
@[simp] theorem powerCycle_adjust : (powerCycle s).adjust = none := rfl
@[simp] theorem powerCycle_refusalMark : (powerCycle s).refusalMark = s.refusalMark := rfl
@[simp] theorem powerCycle_freeCount : (powerCycle s).freeCount = s.freeCount + 1 := rfl
@[simp] theorem powerCycle_turns : (powerCycle s).turns = s.turns := rfl
@[simp] theorem powerCycle_loop : (powerCycle s).loop = Loop.reset := rfl
@[simp] theorem powerCycle_rtc : (powerCycle s).rtc = s.rtc := rfl
@[simp] theorem powerCycle_display : (powerCycle s).display = Display.reset := rfl
@[simp] theorem powerCycle_log : (powerCycle s).log = s.log := rfl

@[simp] theorem State.toPhase_config (p : Phase) : (s.toPhase p).config = s.config := rfl
@[simp] theorem State.toPhase_block (p : Phase) : (s.toPhase p).block = s.block := rfl
@[simp] theorem State.toPhase_ports (p : Phase) : (s.toPhase p).ports = s.ports := rfl
@[simp] theorem State.toPhase_adjust (p : Phase) : (s.toPhase p).adjust = s.adjust := rfl
@[simp] theorem State.toPhase_refusalMark (p : Phase) : (s.toPhase p).refusalMark = s.refusalMark := rfl
@[simp] theorem State.toPhase_freeCount (p : Phase) : (s.toPhase p).freeCount = s.freeCount := rfl
@[simp] theorem State.toPhase_turns (p : Phase) : (s.toPhase p).turns = s.turns := rfl
@[simp] theorem State.toPhase_loop (p : Phase) : (s.toPhase p).loop = { s.loop with phase := p } := rfl
@[simp] theorem State.toPhase_rtc (p : Phase) : (s.toPhase p).rtc = s.rtc := rfl
@[simp] theorem State.toPhase_display (p : Phase) : (s.toPhase p).display = s.display := rfl
@[simp] theorem State.toPhase_log (p : Phase) : (s.toPhase p).log = s.log := rfl

@[simp] theorem Block.chan_setChan_same (b : Block) (ch : Channel) (d : Debounce) :
    (b.setChan ch d).chan ch = d := by cases ch <;> rfl

theorem Block.chan_setChan_other (b : Block) {ch other : Channel} (d : Debounce) (h : other ≠ ch) :
    (b.setChan ch d).chan other = b.chan other := by
  cases ch <;> cases other <;> first | rfl | exact absurd rfl h

@[simp] theorem Block.setChan_evt (b : Block) (ch : Channel) (d : Debounce) :
    (b.setChan ch d).evt = b.evt := by cases ch <;> rfl

theorem Block.setChan_setChan (b : Block) (ch : Channel) (d e : Debounce) :
    (b.setChan ch d).setChan ch e = b.setChan ch e := by cases ch <;> rfl

theorem Block.setChan_comm (b : Block) {ch other : Channel} (d e : Debounce) (h : other ≠ ch) :
    (b.setChan ch d).setChan other e = (b.setChan other e).setChan ch d := by
  cases ch <;> cases other <;> first | rfl | exact absurd rfl h

theorem Block.setChan_withEvt (b : Block) (ch : Channel) (d : Debounce) (e : EventCode) :
    ({ b with evt := e } : Block).setChan ch d = { b.setChan ch d with evt := e } := by cases ch <;> rfl

@[simp] theorem Block.chan_withEvt (b : Block) (ch : Channel) (e : EventCode) :
    ({ b with evt := e } : Block).chan ch = b.chan ch := by cases ch <;> rfl

@[simp] theorem Block.chan_reset (ch : Channel) : Block.reset.chan ch = { down := false, ts := 0 } := by
  cases ch <;> rfl

theorem eventOf_ne_zero (ch : Channel) : eventOf ch ≠ 0#2 := by cases ch <;> decide

theorem eventOf_ne_three (ch : Channel) : eventOf ch ≠ 3#2 := by cases ch <;> decide

theorem eventOf_injective {ch other : Channel} (h : eventOf ch = eventOf other) : ch = other := by
  cases ch <;> cases other <;> first | rfl | exact absurd h (by decide)

end Sys2Proof.Machine
end

