-- ==== Sys2Proof/Laws/Ops.lean ====
section
/-! SUPPORT. For each shared operation, what it can do, said once. -/

namespace Sys2Proof.Machine

/-- `onLegalSlot` answers a next state exactly when the slot is legal, and then the one it was given. -/
theorem onLegalSlot_eq_next {s t u : State} :
    s.onLegalSlot t = .next u ↔ s.block.evt ≠ 3#2 ∧ u = t := by
  unfold State.onLegalSlot
  split <;> simp_all [eq_comm]

/-- `onLegalSlot` faults exactly on the slot value 3. -/
theorem onLegalSlot_eq_fault {s t : State} {r : Fault} :
    s.onLegalSlot t = .fault r ↔ s.block.evt = 3#2 := by
  unfold State.onLegalSlot
  cases r
  split <;> simp_all

/-- `onLegalSlot` never refuses. -/
theorem onLegalSlot_ne_refused {s t : State} {r : Refusal} : s.onLegalSlot t ≠ .refused r := by
  unfold State.onLegalSlot
  split <;> simp

/-- POST answers a next state exactly from a legal slot, and then writes only the slot. -/
theorem post_eq_next {s u : State} {ch : Channel} :
    s.post ch = .next u ↔ s.block.evt ≠ 3#2 ∧
      u = s.setEvt (postSlot s.config.eventCollision s.block.evt (eventOf ch)) :=
  onLegalSlot_eq_next

/-- The slot after POST is the new event or the one that was pending. -/
theorem postSlot_cases (policy : EventCollision) (pending new : EventCode) :
    postSlot policy pending new = new ∨ (postSlot policy pending new = pending ∧ pending ≠ 0#2) := by
  unfold postSlot
  split
  · exact .inl rfl
  · cases policy
    · exact .inl rfl
    · exact .inr ⟨rfl, ‹_›⟩

/-- `andThen` answers a next state exactly when its operation does. -/
theorem andThen_eq_next {o : Host.Outcome State Fault Refusal} {f : State → State} {u : State} :
    andThen o f = .next u ↔ ∃ t, o = .next t ∧ u = f t := by
  cases o <;> simp [andThen, eq_comm]

/-- At the command interface a word is performed as the instruction it decodes to, or refused. -/
theorem issue_of_decode_ok {cmd : Cmd} {ts : Nat} {i : Instr} {s : State} (h : decode cmd ts = .ok i) :
    issue cmd ts s = exec i s := by simp [issue, h]

/-- At the command interface a word the decoder rejects takes the refusal. -/
theorem issue_of_decode_error {cmd : Cmd} {ts : Nat} {c : RefuseCode} {s : State}
    (h : decode cmd ts = .error c) : issue cmd ts s = .next (s.refuse c) := by simp [issue, h]

/-- A timestamp operand is always within its port. -/
theorem timestamp_lt (c : Config) (ts : Nat) : timestamp c ts < 2 ^ c.tsWidth :=
  Nat.mod_lt _ (Nat.two_pow_pos _)

/-- The elapsed time is within the port's range, whatever the two timestamps are. -/
theorem elapsed_lt (c : Config) (ts t : Nat) : elapsed c ts t < 2 ^ c.tsWidth := by
  have hpos : (0 : Int) < ((2 ^ c.tsWidth : Nat) : Int) := by exact_mod_cast Nat.two_pow_pos _
  have h0 := Int.emod_nonneg ((ts : Int) - t) hpos.ne'
  have h1 := Int.emod_lt_of_pos ((ts : Int) - t) hpos
  unfold elapsed
  omega

/-- The table entry of every hour has the four properties of 40_translator.md R66. -/
theorem hourEntry_legal (c : Config) (h : Nat) :
    HourShape.Legal (hourEntry c h).width (hourEntry c h).shift := (hourEntry c h).legal

/-- An hour word keeps clear of every bucket bit and affix bit (40_translator.md R66, constraint 4). -/
theorem hourMask_disjoint (c : Config) (h : Nat) : hourMask c h &&& 0x0C0007FF#32 = 0#32 :=
  (hourEntry c h).legal.2.2.2

/-- A legal hour is shown as an hour from 1 to 12. -/
theorem shownHour_range (hour minute : Nat) : 1 ≤ shownHour hour minute ∧ shownHour hour minute ≤ 12 := by
  unfold shownHour to12
  split <;> omega

/-- An operation changes the block, the ports, the Adjust, the free values drawn and the refusal mark, and
nothing else of the machine. -/
theorem exec_leaves_host {i : Instr} {s t : State} (h : exec i s = .next t) :
    t.config = s.config ∧ t.turns = s.turns ∧ t.loop = s.loop ∧ t.rtc = s.rtc ∧ t.display = s.display ∧
      t.log = s.log := by
  cases i with
  | translate hour minute =>
    simp only [exec, execTranslate] at h
    split at h
    · cases h; simp
    · split at h <;> cases h <;> simp
  | edgeF ch ts => simp only [exec, execEdgeF] at h; cases h; simp
  | edgeR ch ts =>
    simp only [exec, execEdgeR] at h
    split at h
    · obtain ⟨-, rfl⟩ := post_eq_next.1 h; simp [release]
    · split at h <;> cases h <;> simp [release]
  | consume => obtain ⟨-, rfl⟩ := onLegalSlot_eq_next.1 h; simp
  | status => obtain ⟨-, rfl⟩ := onLegalSlot_eq_next.1 h; simp

end Sys2Proof.Machine
end

