-- ==== Sys2Proof/Laws/PerInstr.lean ====
section
/-! SUPPORT. A law of every instruction as syntax: its command word lies in its row of the opcode map
(30_encoding.md R53). -/

namespace Sys2Proof.Laws

/-- The command word of a well-formed instruction is covered by its row's match and mask. -/
def CmdInRow.Statement (i : Instr) : Prop := i.wellFormed = true → i.row.covers (encodeCmd i) = true

theorem CmdInRow.translate (hour : BitVec 5) (minute : BitVec 6) :
    CmdInRow.Statement (.translate hour minute) := by
  intro _
  have key : ∀ h : BitVec 5, ∀ m : BitVec 6,
      (h.setWidth 16 <<< 6 ||| m.setWidth 16) &&& 0xF800#16 = 0x0000#16 := by decide +kernel
  exact decide_eq_true (key hour minute)

theorem CmdInRow.edgeF (ch : Channel) (ts : Nat) : CmdInRow.Statement (.edgeF ch ts) := by
  intro _
  have key : (0x2000#16 ||| ch.bit) &&& 0xEFFF#16 = 0x2000#16 := by cases ch <;> decide
  exact decide_eq_true key

theorem CmdInRow.edgeR (ch : Channel) (ts : Nat) : CmdInRow.Statement (.edgeR ch ts) := by
  intro _
  have key : (0x2800#16 ||| ch.bit) &&& 0xEFFF#16 = 0x2800#16 := by cases ch <;> decide
  exact decide_eq_true key

theorem CmdInRow.consume : CmdInRow.Statement .consume := fun _ => rfl

theorem CmdInRow.status : CmdInRow.Statement .status := fun _ => rfl

end Sys2Proof.Laws
end

