-- ==== Sys2Proof/Laws/Run.lean ====
section
/-! SUPPORT. Runs: one step at a time, one run after another, and the run of Host/Core.lean; the render-loop
thread's action at each position. -/

namespace Sys2Proof.Machine

@[simp] theorem runSteps_zero (s : State) : runSteps 0 s = .next s := rfl

/-- A run that begins with a step that answers a next state goes on from it. -/
theorem runSteps_succ {s t : State} (k : Nat) (h : step s = .next t) : runSteps (k + 1) s = runSteps k t := by
  simp [runSteps, h]

/-- A run that answers a next state can be prolonged from it. -/
theorem runSteps_add {s t : State} (a b : Nat) (h : runSteps a s = .next t) :
    runSteps (a + b) s = runSteps b t := by
  induction a generalizing s with
  | zero => cases h; rw [Nat.zero_add]
  | succ a ih =>
    rw [Nat.succ_add]
    simp only [runSteps] at h ⊢
    cases hs : step s with
    | next u => rw [hs] at h; exact ih h
    | fault r => rw [hs] at h; cases h
    | refused r => rw [hs] at h; cases h

/-- A run of operations can be cut anywhere. -/
theorem runInstrs_append {s t : State} (xs ys : List Instr) (h : runInstrs xs s = .next t) :
    runInstrs (xs ++ ys) s = runInstrs ys t := by
  induction xs generalizing s with
  | nil => cases h; rfl
  | cons i is ih =>
    simp only [List.cons_append, runInstrs] at h ⊢
    cases hx : exec i s with
    | next u => rw [hx] at h; exact ih h
    | fault r => rw [hx] at h; cases h
    | refused r => rw [hx] at h; cases h

/-- `runSteps` is the run of Host/Core.lean. -/
theorem runSteps_eq_core_run (k : Nat) (s : State) : Host.Core.run Sys2Proof.core k s = runSteps k s := by
  induction k generalizing s with
  | zero => rfl
  | succ k ih =>
    simp only [Host.Core.run, runSteps]
    cases h : step s with
    | next t => rw [show Sys2Proof.core.step s = .next t from h]; exact ih t
    | fault r => rw [show Sys2Proof.core.step s = .fault r from h]; rfl
    | refused r => rw [show Sys2Proof.core.step s = .refused r from h]; rfl

/-- With no turn given, the step is the render loop's next action. -/
theorem step_of_no_turns {s : State} (h : s.turns = []) : step s = loopAction s := by simp [step, h]

/-- With a turn given, the step is that turn. -/
theorem step_of_turn {s : State} {t : Turn} {rest : List Turn} (h : s.turns = t :: rest) :
    step s = takeTurn t { s with turns := rest } := by simp [step, h]

section
variable {s : State}

theorem loopAction_bootRtc (h : s.loop.phase = .bootRtc) : loopAction s = .next (bootRtc s) := by
  simp [loopAction, h]

theorem loopAction_bootPower (h : s.loop.phase = .bootPower) : loopAction s = .next (bootPower s) := by
  simp [loopAction, h]

theorem loopAction_bootReset (h : s.loop.phase = .bootReset) : loopAction s = .next (bootReset s) := by
  simp [loopAction, h]

theorem loopAction_bootEdges (h : s.loop.phase = .bootEdges) : loopAction s = .next (bootEdges s) := by
  simp [loopAction, h]

theorem loopAction_consume (h : s.loop.phase = .consume) :
    loopAction s = andThen (issueInstr .consume s) afterConsume := by simp [loopAction, h]

theorem loopAction_adjust (h : s.loop.phase = .adjust) : loopAction s = .next (applyAdjust s) := by
  simp [loopAction, h]

theorem loopAction_read (h : s.loop.phase = .read) : loopAction s = .next (readRtc s) := by
  simp [loopAction, h]

theorem loopAction_translate (h : s.loop.phase = .translate) :
    loopAction s = andThen (issueInstr (translateInstr s.loop.snapshot) s) afterTranslate := by
  simp [loopAction, h]

theorem loopAction_compare (h : s.loop.phase = .compare) : loopAction s = .next (comparePattern s) := by
  simp [loopAction, h]

theorem loopAction_idle (h : s.loop.phase = .idle) : loopAction s = .next (s.toPhase .consume) := by
  simp [loopAction, h]

theorem loopAction_setPixel {i : Fin 30} (h : s.loop.phase = .setPixel i) :
    loopAction s = .next (pushPixel i s) := by simp [loopAction, h]

theorem loopAction_flush (h : s.loop.phase = .flush) : loopAction s = .next (flushDisplay s) := by
  simp [loopAction, h]

theorem loopAction_log (h : s.loop.phase = .log) : loopAction s = .next (writeLog s) := by
  simp [loopAction, h]

theorem loopAction_halted (h : s.loop.phase = .halted) : loopAction s = .next s := by simp [loopAction, h]

end

/-- The loop's TRANSLATE is always of a legal time. -/
theorem translateInstr_wellFormed (t : TimeOfDay) : (translateInstr t).wellFormed = true := by
  simp only [translateInstr, Instr.wellFormed, BitVec.toNat_ofNat, Bool.and_eq_true, decide_eq_true_iff]
  omega

/-! ### Turns, and runs of an infinite interleaving -/

/-- An operation neither reads nor changes the turns still to come. -/
theorem exec_turns (i : Instr) (s : State) (r : List Turn) :
    exec i { s with turns := r } = andThen (exec i s) (fun t => { t with turns := r }) := by
  cases i with
  | translate h m => simp only [exec, execTranslate]; split <;> [rfl; (split <;> rfl)]
  | edgeF ch ts => rfl
  | edgeR ch ts =>
    simp only [exec, execEdgeR]
    change (if isCleanRelease ch ts s then _ else if (s.block.chan ch).down then _ else _) = _
    split
    · unfold State.post State.onLegalSlot
      change (if (release ch s).block.evt = 3#2 then _ else _) = _
      split <;> rfl
    · split <;> rfl
  | consume =>
    simp only [exec, execConsume, State.onLegalSlot]
    split <;> rfl
  | status =>
    simp only [exec, execStatus, State.onLegalSlot]
    split <;> rfl

/-- Nor does a word at the command interface. -/
theorem issue_turns (cmd : Cmd) (ts : Nat) (s : State) (r : List Turn) :
    issue cmd ts { s with turns := r } = andThen (issue cmd ts s) (fun t => { t with turns := r }) := by
  unfold issue
  split
  · exact exec_turns _ s r
  · rfl

/-- Two updates that commute may be carried on with in either order. -/
theorem andThen_comm (o : Host.Outcome State Fault Refusal) (f g : State → State) (h : ∀ t, f (g t) = g (f t)) :
    andThen (andThen o g) f = andThen (andThen o f) g := by cases o <;> simp [andThen, h]

/-- Nor does the render loop's action. -/
theorem loopAction_turns (s : State) (r : List Turn) :
    loopAction { s with turns := r } = andThen (loopAction s) (fun t => { t with turns := r }) := by
  unfold loopAction
  cases hp : s.loop.phase with
  | bootRtc => simp only [bootRtc]; split <;> rfl
  | bootPower => simp only [bootPower]; split <;> rfl
  | consume => simp only [issueInstr, issue_turns]; exact andThen_comm _ _ _ fun _ => rfl
  | translate => simp only [issueInstr, issue_turns]; exact andThen_comm _ _ _ fun _ => rfl
  | compare => simp only [comparePattern]; split <;> rfl
  | _ => rfl

/-- Nor does any turn. -/
theorem takeTurn_turns (x : Turn) (s : State) (r : List Turn) :
    takeTurn x { s with turns := r } = andThen (takeTurn x s) (fun t => { t with turns := r }) := by
  cases x with
  | command cmd ts => exact issue_turns cmd ts s r
  | edge ch e ts =>
    simp only [takeTurn, edgeNotification]
    split
    · exact issue_turns _ _ s r
    · rfl
  | loop => exact loopAction_turns s r
  | _ => rfl
/-- As many steps as turns are given take them all, and one more turn given at the end is taken last. -/
theorem runSteps_snoc (xs : List Turn) (x : Turn) (s t : State)
    (h : runSteps xs.length { s with turns := xs } = .next t) :
    t.turns = [] ∧ runSteps (xs.length + 1) { s with turns := xs ++ [x] } = takeTurn x t := by
  induction xs generalizing s with
  | nil =>
    cases h
    refine ⟨rfl, ?_⟩
    simp only [List.length_nil, List.nil_append, runSteps, step]
    cases takeTurn x { s with turns := [] } <;> rfl
  | cons y ys ih =>
    simp only [List.length_cons, runSteps, step, List.cons_append] at h ⊢
    rw [takeTurn_turns y s] at h ⊢
    cases hy : takeTurn y s with
    | next u => rw [hy] at h; exact ih u h
    | fault f => rw [hy] at h; cases h
    | refused f => rw [hy] at h; cases h

/-- An infinite interleaving is run one turn after the other. -/
theorem runInterleaving_succ {σ : Nat → Turn} {k : Nat} {s t : State} (h : runInterleaving σ k s = .next t) :
    t.turns = [] ∧ runInterleaving σ (k + 1) s = takeTurn (σ k) t := by
  have := runSteps_snoc ((List.range k).map σ) (σ k) s t (by simpa [runInterleaving] using h)
  simpa [runInterleaving, List.range_succ] using this

end Sys2Proof.Machine
end

