-- ==== Sys2Proof/Tests/Slice0.lean ====
section
/-! SUPPORT. Tests of one step each, expected results taken from 95_test_vectors.md, and for every statement with
hypotheses a concrete case that meets them. -/

namespace Sys2Proof.Machine.Tests

/-! ### Configurations and states to test on -/

/-- A conforming hour table: hour H is one bit, at 10 + H. -/
def table : Vector HourShape 12 :=
  Vector.ofFn fun i => ⟨1, 11 + i.val, by revert i; decide⟩

/-- The reference parameters of 95_test_vectors.md. -/
def refConfig : Config :=
  { tsWidth := 32, hours := table, eventCollision := .overwrite, consumeClearScope := .eventOnly,
    rtcArithmetic := .reference, onColor := 1, offColor := 0, defaultTime := ⟨0, 0, 0⟩,
    tsWidth_ge := by decide, colors_ne := by decide }

/-- The other value of both policies. -/
def otherConfig : Config := { refConfig with eventCollision := .drop, consumeClearScope := .eventAndPresses }

/-- `S = DOWN1, TS1, DOWN2, TS2, EVT` (95_test_vectors.md). -/
def S (d1 : Bool) (t1 : Nat) (d2 : Bool) (t2 : Nat) (e : EventCode) : Block := ⟨⟨d1, t1⟩, ⟨d2, t2⟩, e⟩

/-- A machine with a given S under the reference parameters. -/
def machine (b : Block) : State := { State.reset with config := refConfig, block := b }

/-- The same under the other policies. -/
def machine' (b : Block) : State := { State.reset with config := otherConfig, block := b }

/-- The loop of a machine at a phase. -/
def atPhase (p : Phase) (s : State) : State := { s with loop := { s.loop with phase := p } }

/-- What a test looks at in a next state. -/
def after {α : Type} (f : State → α) (o : Host.Outcome State Fault Refusal) : Option α :=
  match o with
  | .next t => some (f t)
  | .fault _ => none
  | .refused _ => none

/-- The block of a next state, ERR and the mark. -/
def blockErrMark (t : State) : Block × ErrCode × Bool := (t.block, t.ports.err, t.refusalMark)

/-! ### WellFormed and Decode -/

/-- Each check of `wellFormed` and `tsFits` refuses an ill-formed term and takes its boundary. -/
theorem test_wellFormed_smoke :
    (Instr.translate 24#5 0#6).wellFormed = false ∧ (Instr.translate 0#5 60#6).wellFormed = false ∧
      (Instr.translate 23#5 59#6).wellFormed = true ∧ (Instr.edgeF .ch1 128).tsFits 7 = false ∧
      (Instr.edgeR .ch1 128).tsFits 7 = false ∧ (Instr.edgeR .ch2 127).tsFits 7 = true := by decide

/-- The configuration checks refuse what R66, R123 and D29 exclude (a mask on bit 26; TS_W of 6; equal colours). -/
theorem test_configuration_refused :
    HourShape.of? 1 26 = none ∧ HourShape.of? 2 25 = none ∧ HourShape.of? 2 10 = none ∧
      HourShape.of? 3 11 = none ∧ HourShape.of? 2 31 = none ∧ (HourShape.of? 2 30).isSome = true ∧
      (Config.of? 6 table .overwrite .eventOnly .reference 1 0 ⟨0, 0, 0⟩).isNone = true ∧
      (Config.of? 7 table .overwrite .eventOnly .reference 1 1 ⟨0, 0, 0⟩).isNone = true ∧
      (Config.of? 7 table .overwrite .eventOnly .reference 1 0 ⟨0, 0, 0⟩).isSome = true := by decide

/-- Words written out from 30_encoding.md R44: `000 00 hhhhh mmmmmm`. -/
theorem test_decode_translate :
    decodeTableWord 16 0b0000000100101000 = some (.translate 4#5 40#6) ∧
      decodeTableWord 16 0b0000010111111011 = some (.translate 23#5 59#6) := by decide

/-- Words written out from 30_encoding.md R45: `001 c e 00000000000`, with a `TS` operand above them. -/
theorem test_decode_edge :
    decodeTableWord 16 0b0010000000000000 = some (.edgeF .ch1 0) ∧
      decodeTableWord 16 0b0011000000000000 = some (.edgeF .ch2 0) ∧
      decodeTableWord 16 0b0010100000000000 = some (.edgeR .ch1 0) ∧
      decodeTableWord 48 (1000 * 65536 + 0b0011100000000000) = some (.edgeR .ch2 1000) := by decide

/-- Words written out from 30_encoding.md R46 and R47. -/
theorem test_decode_consume_status :
    decodeTableWord 16 0b0100000000000000 = some .consume ∧
      decodeTableWord 16 0b0110000000000000 = some .status := by decide

/-- The refused words of 95_test_vectors.md table V4. -/
theorem test_decode_refuses :
    decode 0x0600#16 0 = .error .hourRange ∧ decode 0x003C#16 0 = .error .minuteRange ∧
      decode 0x07FF#16 0 = .error .hourRange ∧ decode 0x0800#16 0 = .error .reservedBits ∧
      decode 0x1000#16 0 = .error .reservedBits ∧ decode 0x2001#16 0 = .error .reservedBits ∧
      decode 0x2C00#16 0 = .error .reservedBits ∧ decode 0x4001#16 0 = .error .reservedBits ∧
      decode 0x5000#16 0 = .error .reservedBits ∧ decode 0x7FFF#16 0 = .error .reservedBits ∧
      decode 0x8000#16 0 = .error .illegalOp ∧ decode 0xFFFF#16 0 = .error .illegalOp := by
  refine ⟨?_, ?_, ?_, ?_, ?_, ?_, ?_, ?_, ?_, ?_, ?_, ?_⟩ <;> rfl

/-- The codes of 60_exceptions.md R108. -/
theorem test_err_codes :
    RefuseCode.illegalOp.err = 1#3 ∧ RefuseCode.reservedBits.err = 2#3 ∧ RefuseCode.hourRange.err = 3#3 ∧
      RefuseCode.minuteRange.err = 4#3 := by decide

/-- Lines of 30_encoding.md R57 and R58, and text that is none. -/
theorem test_assembler :
    assembleLine "TRANSLATE 4, 40 ; TWENTY TO FIVE" = some [.translate 4#5 40#6] ∧
      assembleLine "EDGE.R b2, 0x22" = some [.edgeR .ch2 34] ∧
      assembleLine "PRESS b1, 1000, 1051" = some [.edgeF .ch1 1000, .edgeR .ch1 1051] ∧
      assembleLine "CONSUME" = some [.consume] ∧ assembleLine "; comment" = some [] ∧
      assembleLine "TRANSLATE 24, 0" = none ∧ assembleLine "EDGE.F b3, 0" = none := by decide +kernel

/-! ### The step and the instructions, one step each -/

/-- Each row's word is fetched and run as the first operation after reset. -/
theorem test_first_operation_runs :
    after (fun t => t.ports.err) (step (State.reset.withFetchWord 16 0x0128)) = some 0#3 ∧
      after (fun t => t.block.ch1.down) (step (State.reset.withFetchWord 16 0x2000)) = some true ∧
      after (fun t => t.block) (step (State.reset.withFetchWord 16 0x2800)) = some Block.reset ∧
      after (fun t => t.ports.evtOut) (step (State.reset.withFetchWord 16 0x4000)) = some 0#2 ∧
      after (fun t => t.ports.stat) (step (State.reset.withFetchWord 16 0x6000)) = some 0#4 := by decide

/-- 95_test_vectors.md P5 step 5: word 0x0600 is refused with ERR 3, S unchanged, the run marked. -/
theorem test_refused_word :
    after blockErrMark (issue 0x0600#16 0 (machine (S true 7 false 0 2#2))) =
      some (S true 7 false 0 2#2, 3#3, true) := by decide

/-- 95_test_vectors.md W4 to W8, W11, W12 and the corner hours of V3, with the hour mask symbolic. -/
theorem test_translate_vectors (c : Config) :
    wordPattern c 7 4 = 0x0C000000#32 ||| hourMask c 7 ∧ wordPattern c 7 5 = 0x588#32 ||| hourMask c 7 ∧
      wordPattern c 7 34 = 0x401#32 ||| hourMask c 7 ∧ wordPattern c 7 35 = 0x3B8#32 ||| hourMask c 8 ∧
      wordPattern c 7 59 = 0x388#32 ||| hourMask c 8 ∧ wordPattern c 4 40 = 0x3B0#32 ||| hourMask c 5 ∧
      wordPattern c 0 0 = 201326592#32 ||| hourMask c 12 ∧ wordPattern c 23 35 = 952#32 ||| hourMask c 12 ∧
      wordPattern c 12 35 = 952#32 ||| hourMask c 1 ∧ wordPattern c 13 15 = 1030#32 ||| hourMask c 1 :=
  ⟨rfl, rfl, rfl, rfl, rfl, rfl, rfl, rfl, rfl, rfl⟩

/-- TRANSLATE 11, 35 under the test table: HM(12) is bit 22; and a minute out of range takes ERR 4. -/
theorem test_translate_step :
    after (fun t => t.ports.pattern) (exec (.translate 11#5 35#6) (machine Block.reset)) = some 0x4003B8#32 ∧
      after (fun t => t.ports.err) (exec (.translate 11#5 60#6) (machine Block.reset)) = some 4#3 := by decide

/-- 95_test_vectors.md V5 rows E1 and E6. -/
theorem test_edgeF :
    after State.block (exec (.edgeF .ch1 1000) (machine (S false 0 false 0 0#2))) =
        some (S true 1000 false 0 0#2) ∧
      after State.block (exec (.edgeF .ch2 400) (machine (S false 0 true 100 0#2))) =
        some (S false 0 true 400 0#2) := by decide

/-- 95_test_vectors.md V5 rows E2, E3, E5, E9, E10 and E11: the threshold, IDLE, and the wrap. -/
theorem test_edgeR_threshold :
    after State.block (exec (.edgeR .ch1 1050) (machine (S true 1000 false 0 0#2))) =
        some (S false 1000 false 0 0#2) ∧
      after State.block (exec (.edgeR .ch1 1051) (machine (S true 1000 false 0 0#2))) =
        some (S false 1000 false 0 1#2) ∧
      after State.block (exec (.edgeR .ch2 500) (machine (S false 0 false 0 0#2))) =
        some (S false 0 false 0 0#2) ∧
      after State.block (exec (.edgeR .ch1 0x22) (machine (S true 4294967280 false 0 0#2))) =
        some (S false 4294967280 false 0 0#2) ∧
      after State.block (exec (.edgeR .ch1 0x23) (machine (S true 4294967280 false 0 0#2))) =
        some (S false 4294967280 false 0 1#2) ∧
      after State.block (exec (.edgeR .ch1 4000) (machine (S true 5000 false 0 0#2))) =
        some (S false 5000 false 0 1#2) := by decide

/-- 95_test_vectors.md V5 rows E12 and E13: a full slot under both policies. -/
theorem test_edgeR_collision :
    after State.block (exec (.edgeR .ch2 300) (machine (S false 0 true 200 1#2))) =
        some (S false 0 false 200 2#2) ∧
      after State.block (exec (.edgeR .ch2 300) (machine' (S false 0 true 200 1#2))) =
        some (S false 0 false 200 1#2) := by decide

/-- 95_test_vectors.md V6 rows K1 to K3: EVT_OUT, ADJ and the Adjust. -/
theorem test_consume_results :
    after (fun t => (t.ports.evtOut, t.ports.adj, t.adjust)) (exec .consume (machine (S false 0 false 0 0#2))) =
        some (0#2, 0x00#7, none) ∧
      after (fun t => (t.ports.evtOut, t.ports.adj, t.adjust)) (exec .consume (machine (S false 0 false 0 1#2))) =
        some (1#2, 0x05#7, some 5#32) ∧
      after (fun t => (t.ports.evtOut, t.ports.adj, t.adjust)) (exec .consume (machine (S false 0 false 0 2#2))) =
        some (2#2, 0x7B#7, some 0xFFFFFFFB#32) := by decide

/-- 95_test_vectors.md V6 rows K4, K5 and K6: the clear scope. -/
theorem test_consume_scope :
    after State.block (exec .consume (machine (S false 0 true 150 1#2))) = some (S false 0 true 150 0#2) ∧
      after State.block (exec .consume (machine' (S false 0 true 150 1#2))) = some (S false 0 false 150 0#2) ∧
      after State.block (exec .consume (machine' (S false 0 true 150 0#2))) = some (S false 0 true 150 0#2) := by
  decide

/-- 95_test_vectors.md V6 rows K8, K9 and K10. -/
theorem test_status :
    after (fun t => t.ports.stat) (exec .status (machine (S true 7 false 0 2#2))) = some 0b0110#4 ∧
      after (fun t => t.ports.stat) (exec .status (machine (S false 0 true 9 1#2))) = some 0b1001#4 ∧
      after (fun t => t.ports.stat) (exec .status (machine (S true 7 true 9 0#2))) = some 0b1100#4 := by decide

/-- The illegal slot value stops the operations that read it (93_implementation_defined.md U14). -/
theorem test_illegal_slot :
    after State.block (exec .consume (machine (S false 0 false 0 3#2))) = none ∧
      after State.block (exec .status (machine (S false 0 false 0 3#2))) = none ∧
      after State.block (exec (.edgeR .ch1 51) (machine (S true 0 false 0 3#2))) = none ∧
      after State.block (exec (.edgeR .ch1 50) (machine (S true 0 false 0 3#2))) =
        some (S false 0 false 0 3#2) := by decide

/-- 95_test_vectors.md table V7: the reference RTC at 10:30:00, 00:02:00 and 23:58:17. -/
theorem test_reference_rtc :
    referenceAdjust 5 ⟨10, 30, 0⟩ = ⟨10, 35, 0⟩ ∧ referenceAdjust (-5) ⟨0, 2, 0⟩ = ⟨23, 57, 0⟩ ∧
      referenceAdjust 5 ⟨23, 58, 17⟩ = ⟨0, 3, 17⟩ := by decide

/-- 45_host_render_loop.md R100: 04:40:00 logs `4:40:0`. -/
theorem test_diagnostic_line : diagnosticLine ⟨4, 40, 0⟩ = "4:40:0" := by decide +kernel

/-- One turn each of the environment: reset, power, an edge before and after the edge source is enabled. -/
theorem test_turns :
    after State.block (takeTurn .reset (machine (S true 1 true 2 1#2))) = some Block.reset ∧
      after State.block (takeTurn .powerCycle (machine (S true 1 true 2 1#2))) = some Block.reset ∧
      after State.display (takeTurn .powerCycle (flushDisplay (pushPixel 3 (machine Block.reset)))) =
        some Display.reset ∧
      after State.block (takeTurn (.edge .ch1 .falling 9) (machine Block.reset)) = some Block.reset ∧
      after State.block (takeTurn (.edge .ch1 .falling 9) (bootEdges (machine Block.reset))) =
        some (S true 9 false 0 0#2) := by decide

/-! ### A case that meets the hypotheses of each statement -/

/-- A machine with given turns. -/
def withTurns (ts : List Turn) (s : State) : State := { s with turns := ts }

/-- Every well-formed word is met at both ends of its range. -/
theorem witness_DecodeReadsBackEncode :
    (Instr.translate 0#5 0#6).wellFormed = true ∧ (Instr.translate 23#5 59#6).wellFormed = true := by decide

theorem witness_AcceptedWordHasOneMeaning : decode 0x3800#16 9 = .ok (.edgeR .ch2 9) := rfl

theorem witness_DecoderAcceptsOpcodeMap :
    ∀ r ∈ opcodeMap, ∃ i : Instr, decode r.matchWord 0 = .ok i ∧ i.row = r := by
  intro r hr
  simp only [opcodeMap, List.mem_cons, List.not_mem_nil, or_false] at hr
  rcases hr with rfl | rfl | rfl | rfl | rfl
  · exact ⟨.translate 0#5 0#6, rfl, rfl⟩
  · exact ⟨.edgeF .ch1 0, rfl, rfl⟩
  · exact ⟨.edgeR .ch1 0, rfl, rfl⟩
  · exact ⟨.consume, rfl, rfl⟩
  · exact ⟨.status, rfl, rfl⟩

/-- One line, and one text and comment for the clauses on R57 and R58. -/
theorem witness_AssembledOperationsAreWellFormed :
    assembleLine "TRANSLATE 23, 59" = some [.translate 23#5 59#6] ∧
      instrText true (.edgeR .ch2 34) = "EDGE.R b2, 0x22" ∧ pressText false .ch1 5 120 = "PRESS b1, 5, 120" ∧
      (Instr.edgeR .ch2 34).wellFormed = true ∧ "; up" = ";" ++ " up" := by decide +kernel

theorem witness_StepRunsDecodedCommand :
    (withTurns [.command 0x4000#16 0] (machine Block.reset)).turns = .command 0x4000#16 0 :: [] ∧
      decode 0x4000#16 0 = .ok .consume := ⟨rfl, rfl⟩

theorem witness_StepRunsEdgeNotification :
    (withTurns [.edge .ch2 .rising 5] (machine Block.reset)).turns = .edge .ch2 .rising 5 :: [] := rfl

theorem witness_RefusedWordChangesNoState :
    (withTurns [.command 0x8000#16 0] (machine Block.reset)).turns = .command 0x8000#16 0 :: [] ∧
      decode 0x8000#16 0 = .error .illegalOp := ⟨rfl, rfl⟩

/-- Legal slots, one of each value: for ErrTellsAcceptance, RisingEdgeEndsPress, ConsumeReturnsAndClears,
StatusShowsSlotAndPresses, RepeatedOperations. -/
theorem witness_legal_slot :
    (machine (S true 0 false 0 0#2)).block.evt ≠ 3#2 ∧ (machine (S true 0 false 0 1#2)).block.evt ≠ 3#2 ∧
      (machine (S true 0 false 0 2#2)).block.evt ≠ 3#2 := by decide

theorem witness_LegalOperationNeverFails :
    (Instr.translate 23#5 59#6).wellFormed = true ∧ (machine Block.reset).block.evt ≠ 3#2 := by decide

theorem witness_PortsAreNotReadBack :
    ∃ t, step (withTurns [.command 0x6000#16 0] (machine Block.reset)) = .next t := ⟨_, rfl⟩

/-- Legal hours and minutes at the ends of their ranges and of every clause on the minute: for
TranslateYieldsPattern, PatternHoldsOneBucket, PatternHoldsOneAffix, PatternHoldsIdiomaticHour, PatternShape,
PatternPartsAreDisjoint, PatternTellsFiveMinuteSlot, TranslatorEqualsTwelveEntryTable. -/
theorem witness_legal_times :
    (0#5).toNat < 24 ∧ (23#5).toNat < 24 ∧ (0#6).toNat < 60 ∧ (4#6).toNat < 60 ∧ (5#6).toNat < 60 ∧
      (34#6).toNat < 60 ∧ (35#6).toNat < 60 ∧ (59#6).toNat < 60 := by decide

theorem witness_TranslateRefusesOutOfRange :
    24 ≤ (24#5).toNat ∧ 24 ≤ (31#5).toNat ∧ 60 ≤ (60#6).toNat ∧ 60 ≤ (63#6).toNat := by decide

/-- Each clause of BucketFollowsIntervals at the first and the last minute of its ranges. -/
theorem witness_BucketFollowsIntervals :
    bucket 0 = oClock ∧ bucket 4 = oClock ∧ bucket 5 = fiveMinutes ∧ bucket 9 = fiveMinutes ∧
      bucket 55 = fiveMinutes ∧ bucket 59 = fiveMinutes ∧ bucket 10 = tenMinutes ∧ bucket 14 = tenMinutes ∧
      bucket 50 = tenMinutes ∧ bucket 54 = tenMinutes ∧ bucket 15 = quarter ∧ bucket 19 = quarter ∧
      bucket 45 = quarter ∧ bucket 49 = quarter ∧ bucket 20 = twentyMinutes ∧ bucket 24 = twentyMinutes ∧
      bucket 40 = twentyMinutes ∧ bucket 44 = twentyMinutes ∧ bucket 25 = twentyFiveMinutes ∧
      bucket 29 = twentyFiveMinutes ∧ bucket 35 = twentyFiveMinutes ∧ bucket 39 = twentyFiveMinutes ∧
      bucket 30 = half ∧ bucket 34 = half := by decide

/-- Each clause of AffixAndShownHour at the ends of its ranges. -/
theorem witness_AffixAndShownHour :
    affix 0 = 0#32 ∧ affix 4 = 0#32 ∧ affix 5 = 1024#32 ∧ affix 34 = 1024#32 ∧ affix 35 = 512#32 ∧
      affix 59 = 512#32 ∧ effHour 23 35 = 0 ∧ effHour 23 34 = 23 ∧ to12 0 = 12 ∧ to12 12 = 12 ∧ to12 13 = 1 ∧
      to12 23 = 11 := by decide

/-- The extreme conforming entries: for HourTableIsAnyConformingOne. -/
theorem witness_HourTableIsAnyConformingOne :
    HourShape.Legal 1 11 ∧ HourShape.Legal 1 31 ∧ HourShape.Legal 2 30 ∧ HourShape.Legal 2 24 := by decide

theorem witness_TranslateIsPure :
    (machine Block.reset).config = (machine (S true 5 true 6 2#2)).config ∧ (23#5).toNat < 24 ∧
      (59#6).toNat < 60 := ⟨rfl, by decide, by decide⟩

/-- Another channel exists: for the clauses of FallingEdgeStartsPress and RisingEdgeEndsPress on it; and a press
of 51 ms and one of 50 ms, for the two cases of the slot. -/
theorem witness_edge_clauses :
    Channel.ch2 ≠ Channel.ch1 ∧
      50 < ((51 : Int) - ((machine (S true 0 false 0 0#2)).block.chan .ch1).ts) % ((2 ^ 32 : Nat) : Int) ∧
      ¬ 50 < ((50 : Int) - ((machine (S true 0 false 0 0#2)).block.chan .ch1).ts) % ((2 ^ 32 : Nat) : Int) := by
  decide

theorem witness_BounceCompletesWithAnySlot :
    ((machine (S false 0 true 0 3#2)).block.chan .ch1).down = false ∧
      ((50 : Int) - ((machine (S false 0 true 0 3#2)).block.chan .ch2).ts) %
        ((2 ^ (machine (S false 0 true 0 3#2)).config.tsWidth : Nat) : Int) ≤ 50 := by decide

theorem witness_IllegalSlotFaults :
    (machine (S true 0 false 0 3#2)).block.evt = 3#2 ∧
      ((machine (S true 0 false 0 3#2)).block.chan .ch1).down = true ∧
      50 < ((51 : Int) - ((machine (S true 0 false 0 3#2)).block.chan .ch1).ts) %
        ((2 ^ (machine (S true 0 false 0 3#2)).config.tsWidth : Nat) : Int) := by decide

/-- A legal and empty slot and presses of 50 and 51 ms: for PressPostsAboveThreshold and BounceTrainPostsOnce. -/
theorem witness_presses :
    (machine Block.reset).block.evt ≠ 3#2 ∧ (machine Block.reset).block.evt = 0#2 ∧
      elapsed (machine Block.reset).config 1050 1000 ≤ 50 ∧
      50 < elapsed (machine Block.reset).config 1051 1000 ∧
      (∀ p ∈ [(100, 103), (106, 156)], elapsed (machine Block.reset).config p.2 p.1 ≤ 50) := by decide

theorem witness_EdgesOfTwoChannelsCommute :
    (machine (S true 0 true 10 0#2)).block.evt ≠ 3#2 ∧
      ¬ (postsOn .ch1 (Edge.rising.instr .ch1 60) (machine (S true 0 true 10 0#2)) = true ∧
        postsOn .ch2 (Edge.rising.instr .ch2 60) (machine (S true 0 true 10 0#2)) = true) := by decide

/-- EDGE.R that posts, CONSUME that clears, and each writer of a press, change their field. -/
theorem witness_OnlyTheseOperationsWriteS :
    after (fun t => decide (t.block.evt ≠ 0#2)) (exec (.edgeR .ch1 51) (machine (S true 0 false 0 0#2))) = some true ∧
      after (fun t => decide (t.block.evt ≠ 1#2)) (exec .consume (machine (S false 0 false 0 1#2))) = some true ∧
      after (fun t => decide (t.block.ch2 ≠ ⟨true, 150⟩)) (exec .consume (machine' (S false 0 true 150 1#2))) =
        some true := by decide

theorem witness_CollisionLosesOneEvent :
    Channel.ch1 ≠ Channel.ch2 ∧ (machine (S true 0 true 10 0#2)).block.evt = 0#2 ∧
      isCleanRelease .ch1 100 (machine (S true 0 true 10 0#2)) = true ∧
      isCleanRelease .ch2 100 (machine (S true 0 true 10 0#2)) = true := by decide

theorem witness_ClearScopeDecidesPressInProgress :
    (machine (S false 0 true 150 1#2)).block.evt ≠ 0#2 ∧ (machine (S false 0 true 150 1#2)).block.evt ≠ 3#2 ∧
      isCleanRelease .ch2 400 (machine (S false 0 true 150 1#2)) = true := by decide

theorem witness_PostIsConsumedOrLeft :
    (machine (S true 1000 false 0 0#2)).block.evt = 0#2 ∧
      isCleanRelease .ch1 1120 (machine (S true 1000 false 0 0#2)) = true := by decide

theorem witness_TranslatorAndFsmAreSeparate :
    ∃ t, exec (.edgeF .ch1 5) (machine Block.reset) = .next t := ⟨_, rfl⟩

theorem witness_ResetClearsBlock :
    (withTurns [.reset] (machine (S true 1 true 2 2#2))).turns = .reset :: [] ∧
      (withTurns [.powerCycle] (machine (S true 1 true 2 2#2))).turns = .powerCycle :: [] := ⟨rfl, rfl⟩

theorem witness_AtMostOneEditPerRelease :
    after (consumedOn .ch2 .consume) (exec .consume (machine (S false 0 false 0 2#2))) = some true ∧
      postsOn .ch1 (.edgeR .ch1 51) (machine (S true 0 false 0 0#2)) = true := by decide

/-- A legal state at the largest timestamp: for StepKeepsLegal and LegalRunNeverStops. -/
theorem witness_Legal : Legal (machine (S true 4294967295 true 4294967295 2#2)) := by decide

theorem witness_StepKeepsLegal :
    Legal (machine (S true 7 false 0 2#2)) ∧ ∃ t, step (machine (S true 7 false 0 2#2)) = .next t :=
  ⟨by decide, _, rfl⟩

theorem witness_ConfigurationAndMarkAreKept :
    ∃ t, runSteps 1 { machine Block.reset with refusalMark := true } = .next t := ⟨_, rfl⟩

/-- A host at the start of boot, with the RTC reachable and not. -/
theorem witness_BootReachesRenderLoop :
    (machine Block.reset).turns = [] ∧ (machine Block.reset).loop.phase = .bootRtc ∧
      (machine Block.reset).rtc.reachable = true ∧
      ({ machine Block.reset with rtc := ⟨midnight, false, false⟩ } : State).rtc.reachable = false := by decide

theorem witness_EventAdjustsClockOnce :
    (atPhase .consume (machine (S false 0 false 0 2#2))).turns = [] ∧
      (atPhase .consume (machine (S false 0 false 0 2#2))).loop.phase = .consume ∧
      (atPhase .consume (machine (S false 0 false 0 2#2))).block.evt = eventOf .ch2 ∧
      (atPhase .consume (machine (S false 0 false 0 2#2))).config.rtcArithmetic = .reference := by decide

/-- A loop about to compare a new pattern. -/
def comparing : State :=
  { machine Block.reset with loop := { Loop.reset with phase := .compare, pattern := 0x588#32 } }

theorem witness_ChangedPatternIsPushed :
    comparing.turns = [] ∧ comparing.loop.phase = .compare ∧
      comparing.loop.pattern ≠ comparing.loop.prevPattern := by decide

/-- A loop about to consume, nothing pending, nothing pushed yet: for TwoIterationsPushAtMostOnce,
FirstIterationPushes and IterationsEnd. -/
theorem witness_iteration :
    (atPhase .consume (machine Block.reset)).turns = [] ∧
      (atPhase .consume (machine Block.reset)).loop.phase = .consume ∧
      (atPhase .consume (machine Block.reset)).block.evt = 0#2 ∧
      (atPhase .consume (machine Block.reset)).loop.prevPattern = 0#32 ∧
      (atPhase .consume (machine Block.reset)).loop.phase ≠ .halted ∧
      ((atPhase .consume (machine Block.reset)).loop.phase = .bootRtc →
        (atPhase .consume (machine Block.reset)).rtc.reachable = true) := by decide

/-- An edge that falls into an iteration under unchanged hour and minute, while the strip's pattern is already the
time's: for the first clause of TwoIterationsPushAtMostOnce. -/
def shownAlready : State :=
  withTurns [.edge .ch1 .falling 5]
    { machine Block.reset with
      loop := { Loop.reset with
        phase := .consume, edgesEnabled := true, prevPattern := wordPattern refConfig 0 0 } }

theorem witness_TwoIterationsPushAtMostOnce :
    shownAlready.loop.phase = .consume ∧ .powerCycle ∉ shownAlready.turns ∧
      patternNow shownAlready = shownAlready.loop.prevPattern ∧ (∃ t, runSteps 1 shownAlready = .next t) ∧
      ∀ j u, j ≤ 1 → runSteps j shownAlready = .next u →
        u.rtc.time.hour = shownAlready.rtc.time.hour ∧ u.rtc.time.minute = shownAlready.rtc.time.minute := by
  refine ⟨rfl, by decide, rfl, ⟨_, rfl⟩, fun j u hj hu => ?_⟩
  obtain rfl | rfl : j = 0 ∨ j = 1 := by omega
  · cases hu; exact ⟨rfl, rfl⟩
  · cases hu; exact ⟨rfl, rfl⟩

/-- The interleaving of nothing but the render loop is weakly fair: for the second clause of IterationsEnd. -/
theorem witness_IterationsEnd :
    WeaklyFair (fun _ => .loop) ∧ (∀ n : Nat, (fun _ => Turn.loop) n ≠ .powerCycle) ∧
      (atPhase .consume (machine Block.reset)).loop.phase ≠ .bootRtc :=
  ⟨fun n => ⟨n, le_rfl, rfl⟩, nofun, by decide⟩

/-- A push under way: for StepKeepsDisplayFollows. -/
theorem witness_StepKeepsDisplayFollows :
    DisplayFollows (atPhase (.setPixel 0) (machine Block.reset)) ∧
      ∃ t, step (atPhase (.setPixel 0) (machine Block.reset)) = .next t :=
  ⟨⟨rfl, fun _ hj => absurd hj (Nat.not_lt_zero _)⟩, _, rfl⟩

/-- A loop about to consume and one press of 51 ms to come. -/
def pressing : State :=
  withTurns [.edge .ch1 .falling 5000, .edge .ch1 .rising 5051]
    { machine Block.reset with loop := { Loop.reset with phase := .consume, edgesEnabled := true } }

theorem witness_CleanPressMovesClockAndDisplay :
    pressing.turns = [.edge .ch1 .falling 5000, .edge .ch1 .rising 5051] ∧ pressing.loop.phase = .consume ∧
      pressing.loop.edgesEnabled = true ∧ pressing.block.evt = 0#2 ∧ 50 < elapsed pressing.config 5051 5000 ∧
      DisplayFollows pressing ∧ pressing.config.rtcArithmetic = .reference :=
  ⟨rfl, rfl, rfl, rfl, by decide, .inl rfl, rfl⟩

end Sys2Proof.Machine.Tests
end

section
/-! PROOFS. The translator of 40_translator.md: how TRANSLATE and its sub-functions behave, and the statements
that follow from it (R61-R70). -/

namespace Sys2Proof.Machine

/-! ### The sub-functions -/

/-- R63: BUCKET is constant on each five-minute slot, so its value at the slot's first minute is its value there. -/
theorem bucket_of_slot {minute : Nat} (k : Nat) (lo : 5 * k ≤ minute) (hi : minute < 5 * k + 5) :
    bucket minute = bucket (5 * k) := by
  have same_slot : minute / 5 = 5 * k / 5 := by omega
  simp only [bucket, same_slot]

theorem affix_of_lt_five {minute : Nat} (h : minute < 5) : affix minute = 0#32 := by simp [affix, h]

theorem affix_of_past {minute : Nat} (lo : 5 ≤ minute) (hi : minute < 35) : affix minute = pastAffix := by
  simp [affix, Nat.not_lt.mpr lo, hi]

theorem affix_of_to {minute : Nat} (h : 35 ≤ minute) : affix minute = toAffix := by
  have not_early : ¬ minute < 5 := by omega
  simp [affix, not_early, Nat.not_lt.mpr h]

/-- R65's derived remark: "affix is TO" is exactly `minute ≥ 35`. -/
theorem affix_eq_toAffix_iff {minute : Nat} : affix minute = toAffix ↔ 35 ≤ minute := by
  refine ⟨fun is_to => Nat.not_lt.mp fun before => ?_, affix_of_to⟩
  obtain early | late := Nat.lt_or_ge minute 5
  · rw [affix_of_lt_five early] at is_to
    exact absurd is_to (by decide)
  · rw [affix_of_past late before] at is_to
    exact absurd is_to (by decide)

theorem effHour_of_to (hour : Nat) {minute : Nat} (h : 35 ≤ minute) : effHour hour minute = (hour + 1) % 24 :=
  if_pos h

theorem effHour_of_not_to (hour : Nat) {minute : Nat} (h : ¬ 35 ≤ minute) : effHour hour minute = hour :=
  if_neg h

theorem to12_of_mod_eq_zero {e : Nat} (h : e % 12 = 0) : to12 e = 12 := if_pos h

theorem to12_of_mod_ne_zero {e : Nat} (h : e % 12 ≠ 0) : to12 e = e % 12 := if_neg h

/-! ### The operation -/

/-- R61 for operands in range: neither refusal is taken, and the operation drives PATTERN and nothing else. -/
theorem exec_translate_of_legal {hour : BitVec 5} {minute : BitVec 6} (s : State)
    (hh : hour.toNat < 24) (hm : minute.toNat < 60) :
    exec (.translate hour minute) s =
      .next (s.accept.drivePattern (wordPattern s.config hour.toNat minute.toNat)) := by
  simp [exec, execTranslate, Nat.not_le.mpr hh, Nat.not_le.mpr hm]

/-! ### The statements -/

/-- Settles O14: the accepted operation drives the composed pattern, and the laws of `accept` and `drivePattern`
give the frame. -/
theorem translateYieldsPattern : Obligations.TranslateYieldsPattern := by
  intro hour minute s hh hm
  refine ⟨_, exec_translate_of_legal s hh hm, ?pattern, ?err, ?adjust, ?block, ?host⟩
  case pattern => simp [wordPattern, shownHour]
  case host => simp [HostUnchanged]
  all_goals simp

/-- Settles O17: each interval of the source is one slot of the multiplexer, or two that select the same mask. -/
theorem bucketFollowsIntervals : Obligations.BucketFollowsIntervals := by
  intro minute legal
  refine ⟨fun h => ?oClock, ?five, ?ten, ?quarter, ?twenty, ?twentyFive, fun ⟨lo, hi⟩ => ?half⟩
  case oClock => exact bucket_of_slot 0 (Nat.zero_le _) h
  case five =>
    rintro (⟨lo, hi⟩ | lo)
    · exact bucket_of_slot 1 lo hi
    · exact bucket_of_slot 11 lo legal
  case ten =>
    rintro (⟨lo, hi⟩ | ⟨lo, hi⟩)
    · exact bucket_of_slot 2 lo hi
    · exact bucket_of_slot 10 lo hi
  case quarter =>
    rintro (⟨lo, hi⟩ | ⟨lo, hi⟩)
    · exact bucket_of_slot 3 lo hi
    · exact bucket_of_slot 9 lo hi
  case twenty =>
    rintro (⟨lo, hi⟩ | ⟨lo, hi⟩)
    · exact bucket_of_slot 4 lo hi
    · exact bucket_of_slot 8 lo hi
  case twentyFive =>
    rintro (⟨lo, hi⟩ | ⟨lo, hi⟩)
    · exact bucket_of_slot 5 lo hi
    · exact bucket_of_slot 7 lo hi
  case half => exact bucket_of_slot 6 lo hi

/-- Settles O18: the clauses of the three functions, with "affix is TO" read as `minute ≥ 35`. -/
theorem affixAndShownHour : Obligations.AffixAndShownHour := by
  refine ⟨fun minute => ⟨affix_of_lt_five, affix_of_past, affix_of_to⟩, fun hour minute => ?effHour,
    fun e => ⟨to12_of_mod_eq_zero, to12_of_mod_ne_zero⟩⟩
  rw [Ne, affix_eq_toAffix_iff]
  exact ⟨effHour_of_to hour, effHour_of_not_to hour⟩

/-- Settles O26: the two driven patterns are one `wordPattern` of the same configuration and operands. -/
theorem translateIsPure : Obligations.TranslateIsPure := by
  intro hour minute s u hh hm same_config
  refine ⟨_, _, exec_translate_of_legal s hh hm, exec_translate_of_legal u hh hm, ?pattern, ?blocks⟩
  case pattern => simp [same_config]
  case blocks => simp

end Sys2Proof.Machine
end

section
/-! PROOFS. The debounce and edit FSM of 41_debounce_edit.md: what the two EDGE operations answer, how a press is
timed, and the statement that follows from it (R78-R80, R84, R85). -/

namespace Sys2Proof.Machine

/-! ### The arithmetic on timestamps -/

/-- R84, R91: the release is timed alike from a timestamp operand and from its low `TS_W` bits. -/
theorem elapsed_timestamp_release (c : Config) (ts t : Nat) : elapsed c (timestamp c ts) t = elapsed c ts t := by
  simp only [elapsed, timestamp, Int.natCast_emod, Int.emod_sub_emod]

/-- R84, R91: and so is the press it is timed against. -/
theorem elapsed_timestamp_press (c : Config) (ts t : Nat) : elapsed c ts (timestamp c t) = elapsed c ts t := by
  simp only [elapsed, timestamp, Int.natCast_emod, Int.sub_emod_emod]

/-- R79: a release is clean when a press is in progress and took longer than the threshold. -/
theorem isCleanRelease_iff {ch : Channel} {ts : Nat} {s : State} :
    isCleanRelease ch ts s = true ↔
      (s.block.chan ch).down = true ∧ 50 < elapsed s.config ts (s.block.chan ch).ts := by
  rw [isCleanRelease, elapsed_timestamp_release, Bool.and_eq_true, decide_eq_true_iff, debounceMs]

/-! ### EDGE.F -/

/-- R78: the state after EDGE.F, the press in progress. -/
def startPress (ch : Channel) (ts : Nat) (s : State) : State :=
  s.accept.setChan ch { down := true, ts := timestamp s.config ts }

@[simp] theorem startPress_config (ch : Channel) (ts : Nat) (s : State) :
    (startPress ch ts s).config = s.config := rfl

@[simp] theorem startPress_evt (ch : Channel) (ts : Nat) (s : State) :
    (startPress ch ts s).block.evt = s.block.evt := by simp [startPress]

@[simp] theorem startPress_chan (ch : Channel) (ts : Nat) (s : State) :
    (startPress ch ts s).block.chan ch = { down := true, ts := timestamp s.config ts } := by simp [startPress]

/-- R78: EDGE.F always completes. -/
theorem exec_edgeF (ch : Channel) (ts : Nat) (s : State) :
    exec (.edgeF ch ts) s = .next (startPress ch ts s) := rfl

/-- R85: the release that ends a press is clean exactly above the threshold, whatever the channel was before. -/
theorem isCleanRelease_startPress {ch : Channel} {t0 t1 : Nat} {s : State} :
    isCleanRelease ch t1 (startPress ch t0 s) = true ↔ 50 < elapsed s.config t1 t0 := by
  simp [isCleanRelease_iff, elapsed_timestamp_press]

/-! ### EDGE.R and POST -/

@[simp] theorem release_config (ch : Channel) (s : State) : (release ch s).config = s.config := rfl

@[simp] theorem release_evt (ch : Channel) (s : State) : (release ch s).block.evt = s.block.evt := by
  simp [release]

@[simp] theorem release_chan (ch : Channel) (s : State) :
    (release ch s).block.chan ch = { s.block.chan ch with down := false } := by simp [release]

/-- R80: the new event takes the slot when it is empty or the policy is `overwrite`. -/
theorem postSlot_eq_ite (policy : EventCollision) (pending new : EventCode) :
    postSlot policy pending new = if pending = 0#2 ∨ policy = .overwrite then new else pending := by
  by_cases empty : pending = 0#2
  · simp [postSlot, empty]
  · cases policy <;> simp [postSlot, empty]

/-- R79: a clean release over a legal slot ends the press and posts. -/
theorem exec_edgeR_of_clean {ch : Channel} {ts : Nat} {s : State} (clean : isCleanRelease ch ts s = true)
    (legal : s.block.evt ≠ 3#2) :
    exec (.edgeR ch ts) s = .next
      ((release ch s).setEvt (postSlot s.config.eventCollision s.block.evt (eventOf ch))) := by
  have posts : exec (.edgeR ch ts) s = (release ch s).post ch := if_pos clean
  rw [posts, post_eq_next, release_evt, release_config]
  exact ⟨legal, rfl⟩

/-- R79: a bounce ends the press and posts nothing. -/
theorem exec_edgeR_of_bounce {ch : Channel} {ts : Nat} {s : State} (bounce : ¬ isCleanRelease ch ts s = true)
    (down : (s.block.chan ch).down = true) : exec (.edgeR ch ts) s = .next (release ch s) :=
  (if_neg bounce).trans (if_pos down)

/-! ### A press: EDGE.F, then EDGE.R -/

/-- A press does what its release does to the press in progress. -/
theorem runInstrs_press {ch : Channel} {t0 t1 : Nat} {s t : State}
    (released : exec (.edgeR ch t1) (startPress ch t0 s) = .next t) : runInstrs (press ch t0 t1) s = .next t := by
  simp only [press, runInstrs, exec_edgeF, released]

/-- Of the two operations of a press only the release can post. -/
theorem countPosts_press {ch : Channel} {t0 t1 : Nat} {s t : State}
    (released : exec (.edgeR ch t1) (startPress ch t0 s) = .next t) :
    countPosts ch (press ch t0 t1) s = if 50 < elapsed s.config t1 t0 then 1 else 0 := by
  simp [press, countPosts, exec_edgeF, released, postsOn, isCleanRelease_startPress]

/-! ### The statement -/

/-- Settles O36: the release that ends the press is a clean one or a bounce, and each answers its own state. -/
theorem pressPostsAboveThreshold : Obligations.PressPostsAboveThreshold := by
  intro ch t0 t1 s legal
  by_cases above : 50 < elapsed s.config t1 t0
  · have released := exec_edgeR_of_clean (isCleanRelease_startPress.mpr above)
      ((startPress_evt ch t0 s).symm ▸ legal)
    refine ⟨_, runInstrs_press released, ?idle, countPosts_press released, ?slot⟩
    case idle => simp
    case slot => simp [above, postSlot_eq_ite]
  · have released := exec_edgeR_of_bounce (mt isCleanRelease_startPress.mp above)
      (congrArg Debounce.down (startPress_chan ch t0 s))
    refine ⟨_, runInstrs_press released, ?idle, countPosts_press released, ?slot⟩
    case idle => simp
    case slot => simp [above]

end Sys2Proof.Machine
end

section
/-! PROOFS. Reset and the power cycle (70_reset_and_hazards.md section 1, 60_exceptions.md R118): what a step
answers when the next turn is one of the two, and the statement that follows from it (R25, R119). -/

namespace Sys2Proof.Machine

/-! ### The reset values -/

@[simp] theorem Block.evt_reset : Block.reset.evt = 0#2 := rfl

@[simp] theorem State.reset_block : State.reset.block = Block.reset := rfl

@[simp] theorem State.reset_adjust : State.reset.adjust = none := rfl

@[simp] theorem State.reset_loop : State.reset.loop = Loop.reset := rfl

@[simp] theorem State.reset_display : State.reset.display = Display.reset := rfl

/-! ### The two turns -/

section
variable {s : State} {rest : List Turn}

/-- R119, R121: a reset turn always completes, and it is the block's reset and nothing else. -/
theorem step_of_reset_turn (given : s.turns = .reset :: rest) :
    step s = .next { s with turns := rest }.resetBlock := step_of_turn given

/-- R118: so does a power-cycle turn. -/
theorem step_of_powerCycle_turn (given : s.turns = .powerCycle :: rest) :
    step s = .next (powerCycle { s with turns := rest }) := step_of_turn given

end

/-! ### The statement -/

/-- Settles O46: each turn answers one known state, and the laws of `resetBlock` and `powerCycle` give its fields. -/
theorem resetClearsBlock : Obligations.ResetClearsBlock := by
  refine ⟨?idle, ?slot, ?adjust, fun s rest given => ?resetTurn, fun s rest given => ?powerCycleTurn⟩
  case resetTurn =>
    refine ⟨_, step_of_reset_turn given, ?idle, ?slot, ?adjust, ?config, ?turns, ?mark, ?host⟩
    all_goals simp
  case powerCycleTurn =>
    refine ⟨_, step_of_powerCycle_turn given, ?idle, ?slot, ?adjust, ?rtc, ?loop, ?display, ?records⟩
    all_goals simp
  all_goals simp

end Sys2Proof.Machine
end

section
/-! PROOFS. The encoding of 30_encoding.md: the decoder and the encoder are inverse to each other (R44-R47, R56), and
the opcode map, the refusal order and the count of accepted words follow from that (R53, R54, R56). -/

namespace Sys2Proof

/-! ### Command words as numbers -/

/-- A field of the command word, as a number. -/
theorem toNat_field (cmd : Cmd) (start len : Nat) :
    (cmd.extractLsb' start len).toNat = cmd.toNat / 2 ^ start % 2 ^ len := by
  rw [BitVec.extractLsb'_toNat, Nat.shiftRight_eq_div_pow]

/-- R44: the two fields of Format T stand side by side. -/
theorem toNat_encodeCmd_translate (hour : BitVec 5) (minute : BitVec 6) :
    (encodeCmd (.translate hour minute)).toNat = 64 * hour.toNat + minute.toNat := by
  have minute_fits : minute.toNat < 2 ^ 6 := minute.isLt
  have hour_fits : hour.toNat < 2 ^ 5 := hour.isLt
  have shifted : hour.toNat <<< 6 < 2 ^ 16 := by rw [Nat.shiftLeft_eq]; omega
  rw [encodeCmd, BitVec.toNat_or, BitVec.toNat_shiftLeft,
    BitVec.toNat_setWidth_of_le (by decide), BitVec.toNat_setWidth_of_le (by decide), Nat.mod_eq_of_lt shifted,
    ← Nat.shiftLeft_add_eq_or_of_lt minute_fits, Nat.shiftLeft_eq]
  omega

/-- A word below 2048 is that of its two lower fields. -/
theorem encodeCmd_translate_fields {cmd : Cmd} (low : cmd.toNat < 2048) :
    encodeCmd (.translate (cmd.extractLsb' 6 5) (cmd.extractLsb' 0 6)) = cmd := by
  apply BitVec.eq_of_toNat_eq
  rw [toNat_encodeCmd_translate, toNat_field, toNat_field]
  omega

/-- R45, R52: the CH bit of the channel a word's bit 12 selects is that bit. -/
theorem bit_channelOf (b : Bool) : (channelOf b).bit = if b then 0x1000#16 else 0#16 := by cases b <;> rfl

/-! ### The decoder and the encoder -/

/-- R42: the `TS` operand an EDGE operation was issued with is the one it carries. -/
def Instr.carriesTs (ts : Nat) : Instr → Prop
  | .edgeF _ n => n = ts
  | .edgeR _ n => n = ts
  | .translate _ _ => True
  | .consume => True
  | .status => True

theorem decode_encodeCmd_translate {hour : BitVec 5} {minute : BitVec 6} (ts : Nat)
    (hh : hour.toNat < 24) (hm : minute.toNat < 60) :
    decode (encodeCmd (.translate hour minute)) ts = .ok (.translate hour minute) := by
  have word := toNat_encodeCmd_translate hour minute
  have op : ((encodeCmd (.translate hour minute)).extractLsb' 13 3).toNat = 0 := by
    rw [toNat_field, word]; omega
  have reserved : (encodeCmd (.translate hour minute)).extractLsb' 11 2 = 0#2 :=
    BitVec.eq_of_toNat_eq (by rw [toNat_field, word]; simp; omega)
  have hour_field : (encodeCmd (.translate hour minute)).extractLsb' 6 5 = hour :=
    BitVec.eq_of_toNat_eq (by rw [toNat_field, word]; omega)
  have minute_field : (encodeCmd (.translate hour minute)).extractLsb' 0 6 = minute :=
    BitVec.eq_of_toNat_eq (by rw [toNat_field, word]; omega)
  simp [decode, op, decodeTranslate, reserved, hour_field, minute_field, Nat.not_le.mpr hh, Nat.not_le.mpr hm]

/-- R45, R53: eleven reserved bits leave four words of Format E, told apart by EDGE and CH. -/
theorem edge_word_cases {cmd : Cmd} (op : (cmd.extractLsb' 13 3).toNat = 1) (reserved : cmd.extractLsb' 0 11 = 0#11) :
    cmd = 0x2000#16 ∨ cmd = 0x2800#16 ∨ cmd = 0x3000#16 ∨ cmd = 0x3800#16 := by
  have low := congrArg BitVec.toNat reserved
  rw [toNat_field] at op low
  simp only [← BitVec.toNat_inj, BitVec.toNat_ofNat] at low ⊢
  omega

/-- R46, R47: thirteen reserved bits leave one word for each operation field. -/
theorem plain_word {cmd word : Cmd} (op : (cmd.extractLsb' 13 3).toNat = word.toNat / 8192)
    (low_zero : word.toNat % 8192 = 0) (reserved : cmd.extractLsb' 0 13 = 0#13) : word = cmd := by
  have low := congrArg BitVec.toNat reserved
  rw [toNat_field] at op low
  simp only [← BitVec.toNat_inj, BitVec.toNat_ofNat] at low ⊢
  omega

/-- R56: the format the operation field selects. -/
theorem decode_cases (cmd : Cmd) (ts : Nat) :
    ((cmd.extractLsb' 13 3).toNat = 0 ∧ decode cmd ts = decodeTranslate cmd) ∨
    ((cmd.extractLsb' 13 3).toNat = 1 ∧ decode cmd ts = decodeEdge cmd ts) ∨
    ((cmd.extractLsb' 13 3).toNat = 2 ∧ decode cmd ts = decodePlain cmd .consume) ∨
    ((cmd.extractLsb' 13 3).toNat = 3 ∧ decode cmd ts = decodePlain cmd .status) ∨
    (4 ≤ (cmd.extractLsb' 13 3).toNat ∧ decode cmd ts = .error .illegalOp) := by
  unfold decode
  split
  next op => exact .inl ⟨op, rfl⟩
  next op => exact .inr (.inl ⟨op, rfl⟩)
  next op => exact .inr (.inr (.inl ⟨op, rfl⟩))
  next op => exact .inr (.inr (.inr (.inl ⟨op, rfl⟩)))
  next not0 not1 not2 not3 =>
    have others : ∀ k < 4, (cmd.extractLsb' 13 3).toNat ≠ k := by
      intro k small
      interval_cases k <;> assumption
    exact .inr (.inr (.inr (.inr ⟨Nat.not_lt.mp fun small => others _ small rfl, rfl⟩)))

/-- What the decoder reads from a word: that word's instruction, and no other. -/
theorem encodeCmd_of_decode {cmd : Cmd} {ts : Nat} {i : Instr} (accepted : decode cmd ts = .ok i) :
    encodeCmd i = cmd ∧ i.wellFormed = true ∧ i.carriesTs ts := by
  obtain ⟨op, format⟩ | ⟨op, format⟩ | ⟨op, format⟩ | ⟨op, format⟩ | ⟨-, format⟩ := decode_cases cmd ts
  all_goals rw [format] at accepted
  case inl =>
    simp only [decodeTranslate] at accepted
    split_ifs at accepted with reserved
    cases accepted
    have low : cmd.toNat < 2048 := by
      have middle := congrArg BitVec.toNat (not_not.mp reserved)
      rw [toNat_field] at op middle
      simp only [BitVec.toNat_ofNat] at middle
      omega
    refine ⟨encodeCmd_translate_fields low, ?_, trivial⟩
    simp only [Instr.wellFormed, Bool.and_eq_true, decide_eq_true_iff]
    omega
  case inr.inl =>
    unfold decodeEdge at accepted
    split_ifs at accepted with reserved edge
    all_goals
      cases accepted
      obtain rfl | rfl | rfl | rfl := edge_word_cases op (not_not.mp reserved)
      all_goals simp_all [encodeCmd, channelOf, Channel.bit, Instr.wellFormed, Instr.carriesTs]
  case inr.inr.inl =>
    unfold decodePlain at accepted
    split_ifs at accepted with reserved
    cases accepted
    exact ⟨plain_word op rfl (not_not.mp reserved), rfl, trivial⟩
  case inr.inr.inr.inl =>
    unfold decodePlain at accepted
    split_ifs at accepted with reserved
    cases accepted
    exact ⟨plain_word op rfl (not_not.mp reserved), rfl, trivial⟩
  case inr.inr.inr.inr => cases accepted

/-- R56 against R44-R47: a word decodes to an instruction exactly when it is that instruction's word, the
instruction is well-formed, and it carries the `TS` operand it was issued with. -/
theorem decode_eq_ok_iff {cmd : Cmd} {ts : Nat} {i : Instr} :
    decode cmd ts = .ok i ↔ encodeCmd i = cmd ∧ i.wellFormed = true ∧ i.carriesTs ts := by
  refine ⟨encodeCmd_of_decode, ?_⟩
  rintro ⟨rfl, wf, carries⟩
  cases i with
  | translate hour minute =>
    simp only [Instr.wellFormed, Bool.and_eq_true, decide_eq_true_iff] at wf
    exact decode_encodeCmd_translate ts wf.1 wf.2
  | edgeF ch n => cases carries; cases ch <;> simp [decode, decodeEdge, encodeCmd, Channel.bit, channelOf]
  | edgeR ch n => cases carries; cases ch <;> simp [decode, decodeEdge, encodeCmd, Channel.bit, channelOf]
  | consume => rfl
  | status => rfl

/-- R53: the row of TRANSLATE covers the words whose five upper bits are 0. -/
theorem lt_of_translate_row {cmd : Cmd} (covers : cmd &&& 0xF800#16 = 0#16) : cmd.toNat < 2048 := by
  have lower : cmd &&& 0x07FF#16 = cmd := by
    calc cmd &&& 0x07FF#16 = (cmd &&& 0xF800#16) ||| (cmd &&& 0x07FF#16) := by rw [covers, BitVec.zero_or]
      _ = cmd &&& 0xFFFF#16 := by rw [← BitVec.and_or_distrib_left]; rfl
      _ = cmd := BitVec.and_allOnes
  rw [← lower, BitVec.toNat_and]
  exact Nat.lt_succ_of_le Nat.and_le_right

/-- R53: a word in an EDGE row is the row's match with the word's CH bit. -/
theorem eq_of_edge_row {cmd base : Cmd} (covers : cmd &&& 0xEFFF#16 = base) :
    base ||| (channelOf (cmd.getLsbD 12)).bit = cmd := by
  calc base ||| (channelOf (cmd.getLsbD 12)).bit = (cmd &&& 0xEFFF#16) ||| (cmd &&& BitVec.twoPow 16 12) := by
        rw [bit_channelOf, covers, BitVec.and_twoPow]; rfl
    _ = cmd &&& 0xFFFF#16 := by rw [← BitVec.and_or_distrib_left]; rfl
    _ = cmd := BitVec.and_allOnes

/-- Every well-formed instruction's word lies in its row, and in TRANSLATE's row only within the two ranges. -/
theorem row_of_wellFormed {i : Instr} (wf : i.wellFormed = true) :
    i.row.covers (encodeCmd i) = true ∧ (i.row.mnemonic = "TRANSLATE" →
      ((encodeCmd i).extractLsb' 6 5).toNat < 24 ∧ ((encodeCmd i).extractLsb' 0 6).toNat < 60) := by
  cases i with
  | translate hour minute =>
    refine ⟨Laws.CmdInRow.translate hour minute wf, fun _ => ?_⟩
    simp only [Instr.wellFormed, Bool.and_eq_true, decide_eq_true_iff] at wf
    rw [toNat_field, toNat_field, toNat_encodeCmd_translate]
    omega
  | edgeF ch n =>
    exact ⟨Laws.CmdInRow.edgeF ch n wf, fun name => absurd (show "EDGE.F" = "TRANSLATE" from name) (by decide)⟩
  | edgeR ch n =>
    exact ⟨Laws.CmdInRow.edgeR ch n wf, fun name => absurd (show "EDGE.R" = "TRANSLATE" from name) (by decide)⟩
  | consume => exact ⟨Laws.CmdInRow.consume wf, fun name => absurd name (by decide)⟩
  | status => exact ⟨Laws.CmdInRow.status wf, fun name => absurd name (by decide)⟩

/-- R53: a legal word of a row is the word of a well-formed instruction of that row. -/
theorem exists_instr_of_row {cmd : Cmd} (ts : Nat) {r : OpRow} (listed : r ∈ opcodeMap)
    (covers : r.covers cmd = true) (ranges : r.mnemonic = "TRANSLATE" →
      (cmd.extractLsb' 6 5).toNat < 24 ∧ (cmd.extractLsb' 0 6).toNat < 60) :
    ∃ i : Instr, i.row = r ∧ encodeCmd i = cmd ∧ i.wellFormed = true ∧ i.carriesTs ts := by
  simp only [opcodeMap, List.mem_cons, List.not_mem_nil, or_false] at listed
  rw [OpRow.covers, decide_eq_true_iff] at covers
  obtain rfl | rfl | rfl | rfl | rfl := listed
  · refine ⟨.translate _ _, rfl, encodeCmd_translate_fields (lt_of_translate_row covers), ?_, trivial⟩
    simpa [Instr.wellFormed] using ranges rfl
  · exact ⟨.edgeF _ ts, rfl, eq_of_edge_row covers, rfl, rfl⟩
  · exact ⟨.edgeR _ ts, rfl, eq_of_edge_row covers, rfl, rfl⟩
  · exact ⟨.consume, rfl, (BitVec.and_allOnes.symm.trans covers).symm, rfl, trivial⟩
  · exact ⟨.status, rfl, (BitVec.and_allOnes.symm.trans covers).symm, rfl, trivial⟩

/-! ### How many words are accepted -/

/-- R56: the legal instructions with `TS` 0, as the sum `1440 + 4 + 1 + 1` counts them: an hour and a minute, a
direction and a channel, CONSUME and STATUS. -/
abbrev LegalIndex : Type := (Fin 24 × Fin 60) ⊕ (Bool × Bool) ⊕ Bool

/-- The instruction of an index. -/
def LegalIndex.instr : LegalIndex → Instr
  | .inl (hour, minute) => .translate (BitVec.ofNat 5 hour) (BitVec.ofNat 6 minute)
  | .inr (.inl (rising, second)) => if rising then .edgeR (channelOf second) 0 else .edgeF (channelOf second) 0
  | .inr (.inr plain) => if plain then .consume else .status

/-- The index of an instruction. -/
def LegalIndex.ofInstr : Instr → LegalIndex
  | .translate hour minute => .inl (Fin.ofNat 24 hour.toNat, Fin.ofNat 60 minute.toNat)
  | .edgeF ch _ => .inr (.inl (false, decide (ch = .ch2)))
  | .edgeR ch _ => .inr (.inl (true, decide (ch = .ch2)))
  | .consume => .inr (.inr true)
  | .status => .inr (.inr false)

theorem LegalIndex.ofInstr_instr (x : LegalIndex) : LegalIndex.ofInstr x.instr = x := by
  obtain ⟨hour, minute⟩ | ⟨rising, second⟩ | plain := x
  · simp only [LegalIndex.instr, LegalIndex.ofInstr, BitVec.toNat_ofNat, Sum.inl.injEq, Prod.mk.injEq,
      Fin.ext_iff, Fin.val_ofNat]
    omega
  · revert rising second; decide
  · revert plain; decide

theorem LegalIndex.exists_iff {i : Instr} :
    (∃ x : LegalIndex, x.instr = i) ↔ i.wellFormed = true ∧ i.carriesTs 0 := by
  constructor
  · rintro ⟨⟨hour, minute⟩ | ⟨rising, second⟩ | plain, rfl⟩
    · simp only [LegalIndex.instr, Instr.wellFormed, BitVec.toNat_ofNat, Bool.and_eq_true, decide_eq_true_iff]
      exact ⟨by omega, trivial⟩
    · cases rising <;> exact ⟨rfl, rfl⟩
    · cases plain <;> exact ⟨rfl, trivial⟩
  · rintro ⟨wf, carries⟩
    cases i with
    | translate hour minute =>
      simp only [Instr.wellFormed, Bool.and_eq_true, decide_eq_true_iff] at wf
      exact ⟨.inl (⟨hour.toNat, wf.1⟩, ⟨minute.toNat, wf.2⟩), by simp [LegalIndex.instr]⟩
    | edgeF ch n => cases carries; exact ⟨LegalIndex.ofInstr (.edgeF ch 0), by cases ch <;> rfl⟩
    | edgeR ch n => cases carries; exact ⟨LegalIndex.ofInstr (.edgeR ch 0), by cases ch <;> rfl⟩
    | consume => exact ⟨.inr (.inr true), rfl⟩
    | status => exact ⟨.inr (.inr false), rfl⟩

/-- The word of an index, as a number. -/
def LegalIndex.word (x : LegalIndex) : Nat := (encodeCmd x.instr).toNat

theorem LegalIndex.decode_word (x : LegalIndex) : decode (encodeCmd x.instr) 0 = .ok x.instr :=
  decode_eq_ok_iff.mpr ⟨rfl, LegalIndex.exists_iff.mp ⟨x, rfl⟩⟩

theorem LegalIndex.word_injective : Function.Injective LegalIndex.word := by
  intro x y same
  have same_word : encodeCmd x.instr = encodeCmd y.instr := BitVec.eq_of_toNat_eq same
  have same_instr := Except.ok.inj (x.decode_word.symm.trans (same_word ▸ y.decode_word))
  rw [← x.ofInstr_instr, same_instr, y.ofInstr_instr]

/-- The accepted words are the words of the indices. -/
theorem accepted_iff_word {w : Nat} :
    (w < 65536 ∧ (decode (BitVec.ofNat 16 w) 0).toOption.isSome = true) ↔ ∃ x : LegalIndex, x.word = w := by
  constructor
  · rintro ⟨fits, accepted⟩
    cases decoded : decode (BitVec.ofNat 16 w) 0 with
    | error code => rw [decoded] at accepted; cases accepted
    | ok i =>
      obtain ⟨word, legal⟩ := decode_eq_ok_iff.mp decoded
      obtain ⟨x, rfl⟩ := LegalIndex.exists_iff.mpr legal
      exact ⟨x, by rw [LegalIndex.word, word, BitVec.toNat_ofNat, Nat.mod_eq_of_lt fits]⟩
  · rintro ⟨x, rfl⟩
    refine ⟨(encodeCmd x.instr).isLt, ?_⟩
    rw [LegalIndex.word, BitVec.ofNat_toNat, BitVec.setWidth_eq, x.decode_word]
    rfl

/-- A list of the numbers below `n` that pass a test is as long as their set is large. -/
theorem length_filter_range (p : Nat → Bool) (n : Nat) :
    ((List.range n).filter p).length = ((Finset.range n).filter (fun w => p w = true)).card := by
  change _ = ((List.range n).filter (fun w => decide (p w = true))).length
  simp only [Bool.decide_eq_true]

/-! ### The statements -/

/-- Settles O1: the words of a well-formed instruction meet the three conditions of `decode_eq_ok_iff`. -/
theorem decodeReadsBackEncode : Obligations.DecodeReadsBackEncode := by
  intro i wf
  refine decode_eq_ok_iff.mpr ⟨rfl, wf, ?_⟩
  cases i <;> trivial

/-- Settles O2: the three conditions of `decode_eq_ok_iff`, the last one read at an EDGE operation. -/
theorem acceptedWordHasOneMeaning : Obligations.AcceptedWordHasOneMeaning := by
  intro cmd ts i accepted
  obtain ⟨word, wf, carries⟩ := decode_eq_ok_iff.mp accepted
  refine ⟨word, wf, ?_⟩
  rintro ch n (rfl | rfl) <;> exact carries

/-- Settles O3: by `decode_eq_ok_iff` an accepted word is one of a well-formed instruction of the row. -/
theorem decoderAcceptsOpcodeMap : Obligations.DecoderAcceptsOpcodeMap := by
  intro cmd ts r listed
  constructor
  · rintro ⟨i, accepted, rfl⟩
    obtain ⟨rfl, wf, -⟩ := decode_eq_ok_iff.mp accepted
    exact row_of_wellFormed wf
  · rintro ⟨covers, ranges⟩
    obtain ⟨i, row, word⟩ := exists_instr_of_row ts listed covers ranges
    exact ⟨i, decode_eq_ok_iff.mpr word, row⟩

/-- Settles O4: in each format the decoder's checks are those the list has for that operation field. -/
theorem decoderRefusesInOrder : Obligations.DecoderRefusesInOrder := by
  intro cmd ts
  obtain ⟨op, format⟩ | ⟨op, format⟩ | ⟨op, format⟩ | ⟨op, format⟩ | ⟨op, format⟩ := decode_cases cmd ts
  all_goals rw [format]
  case inl =>
    simp only [refusalOf, op, decodeTranslate, true_and, Nat.reduceLeDiff, Nat.reduceEqDiff,
      false_and, or_false, if_false]
    split_ifs <;> rfl
  case inr.inl =>
    simp only [refusalOf, op, decodeEdge, true_and, Nat.reduceLeDiff, Nat.reduceEqDiff, false_and, or_false,
      false_or, if_false]
    split_ifs <;> rfl
  case inr.inr.inl =>
    simp only [refusalOf, op, decodePlain, true_and, Nat.reduceLeDiff, Nat.reduceEqDiff, false_and, false_or, if_false]
    split_ifs <;> rfl
  case inr.inr.inr.inl =>
    simp only [refusalOf, op, decodePlain, true_and, Nat.reduceLeDiff, Nat.reduceEqDiff, false_and, false_or, if_false]
    split_ifs <;> rfl
  case inr.inr.inr.inr => simp only [refusalOf, if_pos op]

/-- Settles O5: the accepted words are as many as the indices, 24 · 60 and 2 · 2 and 2 of them. -/
theorem decoderAccepts1446Words : Obligations.DecoderAccepts1446Words := by
  unfold Obligations.DecoderAccepts1446Words
  rw [length_filter_range]
  have accepted_words : (Finset.range 65536).filter
      (fun w => (decode (BitVec.ofNat 16 w) 0).toOption.isSome = true) = Finset.univ.image LegalIndex.word := by
    ext w
    simpa using accepted_iff_word
  rw [accepted_words, Finset.card_image_of_injective _ LegalIndex.word_injective]
  simp [LegalIndex]

/-- Settles O6: the decoder evaluated at each word. -/
theorem specWordsDecode : Obligations.SpecWordsDecode := ⟨rfl, rfl, rfl, rfl, rfl, rfl, rfl, rfl⟩

end Sys2Proof
end

section
/-! PROOFS. The laws of a pattern (40_translator.md sections 2 to 4): the bits each of its three parts can set, and
what follows for the pattern whole (R62, R66, R68, R71-R75). -/

namespace Sys2Proof.Machine

/-! ### The bits of the three parts -/

theorem bucket_and_bucketBits (minute : Nat) : bucket minute &&& 0x0C0001FF#32 = bucket minute := by
  unfold bucket
  split <;> rfl

theorem bucket_and_affixBits (minute : Nat) : bucket minute &&& 0x600#32 = 0#32 := by
  unfold bucket
  split <;> rfl

theorem affix_and_bucketBits (minute : Nat) : affix minute &&& 0x0C0001FF#32 = 0#32 := by
  unfold affix
  split_ifs <;> rfl

theorem affix_and_affixBits (minute : Nat) : affix minute &&& 0x600#32 = affix minute := by
  unfold affix
  split_ifs <;> rfl

/-- R66, constraint 4: an hour word has no bit under any mask below `0x0C0007FF`. -/
theorem hourMask_and_of_le (c : Config) (h : Nat) {m : Pattern} (below : 0x0C0007FF#32 &&& m = m) :
    hourMask c h &&& m = 0#32 := by
  rw [← below, ← BitVec.and_assoc, hourMask_disjoint, BitVec.zero_and]

/-- A word whose bits lie under one mask shares none with a word that has none there. -/
theorem and_eq_zero_of_masks {x y m : Pattern} (under : x &&& m = x) (clear : y &&& m = 0#32) : x &&& y = 0#32 := by
  rw [← under, BitVec.and_assoc, BitVec.and_comm m y, clear, BitVec.and_zero]

/-- A word with no bit under a mask lies outside it. -/
theorem and_not_of_and_eq_zero {x m : Pattern} (clear : x &&& m = 0#32) : x &&& ~~~m = x := by
  calc x &&& ~~~m = (x &&& m) ||| (x &&& ~~~m) := by rw [clear, BitVec.zero_or]
    _ = x &&& (m ||| ~~~m) := BitVec.and_or_distrib_left.symm
    _ = x := by rw [BitVec.or_not_self, BitVec.and_allOnes]

theorem bucket_and_affix (minute : Nat) : bucket minute &&& affix minute = 0#32 :=
  and_eq_zero_of_masks (bucket_and_bucketBits minute) (affix_and_bucketBits minute)

theorem bucket_and_hourMask (c : Config) (minute h : Nat) : bucket minute &&& hourMask c h = 0#32 :=
  and_eq_zero_of_masks (bucket_and_bucketBits minute) (hourMask_and_of_le c h rfl)

theorem affix_and_hourMask (c : Config) (minute h : Nat) : affix minute &&& hourMask c h = 0#32 :=
  and_eq_zero_of_masks (affix_and_affixBits minute) (hourMask_and_of_le c h rfl)

theorem bucket_or_affix_and_hourMask (c : Config) (minute h : Nat) :
    (bucket minute ||| affix minute) &&& hourMask c h = 0#32 := by
  rw [BitVec.and_or_distrib_right, bucket_and_hourMask, affix_and_hourMask, BitVec.or_zero]

/-! ### A pattern under a mask -/

theorem wordPattern_and (c : Config) (hour minute : Nat) (m : Pattern) :
    wordPattern c hour minute &&& m =
      (bucket minute &&& m) ||| (affix minute &&& m) ||| (hourMask c (shownHour hour minute) &&& m) := by
  rw [wordPattern, BitVec.and_or_distrib_right, BitVec.and_or_distrib_right]

/-- R71. -/
theorem wordPattern_and_bucketBits (c : Config) (hour minute : Nat) :
    wordPattern c hour minute &&& 0x0C0001FF#32 = bucket minute := by
  rw [wordPattern_and, bucket_and_bucketBits, affix_and_bucketBits, hourMask_and_of_le _ _ rfl, BitVec.or_zero,
    BitVec.or_zero]

/-- R72. -/
theorem wordPattern_and_affixBits (c : Config) (hour minute : Nat) :
    wordPattern c hour minute &&& 0x600#32 = affix minute := by
  rw [wordPattern_and, bucket_and_affixBits, affix_and_affixBits, hourMask_and_of_le _ _ rfl, BitVec.or_zero,
    BitVec.zero_or]

/-- R71, R72: the bits of both groups are what the minute alone gives. -/
theorem wordPattern_and_minuteBits (c : Config) (hour minute : Nat) :
    wordPattern c hour minute &&& 0x0C0007FF#32 = bucket minute ||| affix minute := by
  calc wordPattern c hour minute &&& 0x0C0007FF#32
      = (wordPattern c hour minute &&& 0x0C0001FF#32) ||| (wordPattern c hour minute &&& 0x600#32) := by
        rw [← BitVec.and_or_distrib_left]; rfl
    _ = bucket minute ||| affix minute := by rw [wordPattern_and_bucketBits, wordPattern_and_affixBits]

/-- R73. -/
theorem wordPattern_and_hourBits (c : Config) (hour minute : Nat) :
    wordPattern c hour minute &&& ~~~0x0C0007FF#32 = hourMask c (shownHour hour minute) := by
  have bucket_outside : bucket minute &&& ~~~0x0C0007FF#32 = 0#32 :=
    and_eq_zero_of_masks (bucket_and_bucketBits minute) rfl
  have affix_outside : affix minute &&& ~~~0x0C0007FF#32 = 0#32 :=
    and_eq_zero_of_masks (affix_and_affixBits minute) rfl
  rw [wordPattern_and, bucket_outside, affix_outside, and_not_of_and_eq_zero (hourMask_disjoint _ _), BitVec.or_zero,
    BitVec.zero_or]

/-- R68: the parts share no bit, so that their OR is their sum. -/
theorem toNat_wordPattern (c : Config) (hour minute : Nat) :
    (wordPattern c hour minute).toNat =
      (bucket minute).toNat + (affix minute).toNat + (hourMask c (shownHour hour minute)).toNat := by
  have outer := bucket_or_affix_and_hourMask c minute (shownHour hour minute)
  rw [wordPattern, ← BitVec.add_eq_or_of_and_eq_zero _ _ outer, BitVec.toNat_add_of_and_eq_zero outer,
    ← BitVec.add_eq_or_of_and_eq_zero _ _ (bucket_and_affix minute),
    BitVec.toNat_add_of_and_eq_zero (bucket_and_affix minute)]

/-! ### How many bits a pattern has -/

theorem countP_or_of_disjoint {α : Type} (p q : α → Bool) (l : List α)
    (disjoint : ∀ a ∈ l, ¬ (p a = true ∧ q a = true)) :
    l.countP (fun a => p a || q a) = l.countP p + l.countP q := by
  induction l with
  | nil => rfl
  | cons a l ih =>
    have head := disjoint a List.mem_cons_self
    have tail := ih fun b hb => disjoint b (List.mem_cons_of_mem a hb)
    simp only [List.countP_cons, tail]
    cases hp : p a <;> cases hq : q a <;> simp_all <;> omega

/-- R74: the bits of two words that share none add up. -/
theorem popcount_or {w : Nat} {x y : BitVec w} (disjoint : x &&& y = 0#w) :
    popcount (x ||| y) = popcount x + popcount y := by
  simp only [popcount, BitVec.getLsbD_or]
  refine countP_or_of_disjoint _ _ _ fun i _ both => ?_
  have bit := congrArg (fun v => v.getLsbD i) disjoint
  simp [both.1, both.2] at bit

/-- R66, R74: a conforming entry has as many bits as its width. -/
theorem popcount_maskOf {width shift : Nat} (legal : HourShape.Legal width shift) :
    popcount (HourShape.maskOf width shift) = width := by
  obtain ⟨rfl | rfl, low, high, -⟩ := legal
  · have below : shift ≤ 31 := by omega
    interval_cases shift <;> decide
  · have below : shift ≤ 30 := by omega
    interval_cases shift <;> decide

/-- R74. -/
theorem popcount_wordPattern (c : Config) (hour minute : Nat) :
    popcount (wordPattern c hour minute) =
      popcount (bucket minute) + popcount (affix minute) + (hourEntry c (shownHour hour minute)).width := by
  rw [wordPattern, popcount_or (bucket_or_affix_and_hourMask c minute _), popcount_or (bucket_and_affix minute),
    hourMask, HourShape.mask, popcount_maskOf (hourEntry_legal c _)]

/-! ### The five-minute slots -/

/-- 95_test_vectors.md table V1: the bits outside the hour word, by the five-minute slot. -/
def slotWords : List Nat := [201326592, 1416, 1472, 1030, 1456, 1464, 1025, 952, 944, 518, 960, 904]

theorem bucket_or_affix {minute : Nat} (legal : minute < 60) :
    bucket minute ||| affix minute = BitVec.ofNat 32 (slotWords.getD (minute / 5) 0) := by
  have every : ∀ m < 60, bucket m ||| affix m = BitVec.ofNat 32 (slotWords.getD (m / 5) 0) := by decide
  exact every minute legal

theorem slotWords_injective {k k' : Nat} (hk : k < 12) (hk' : k' < 12)
    (same : BitVec.ofNat 32 (slotWords.getD k 0) = BitVec.ofNat 32 (slotWords.getD k' 0)) : k = k' := by
  have every : ∀ a < 12, ∀ b < 12,
      BitVec.ofNat 32 (slotWords.getD a 0) = BitVec.ofNat 32 (slotWords.getD b 0) → a = b := by decide
  exact every k hk k' hk' same

theorem popcount_bucket_affix_bounds {minute : Nat} (legal : minute < 60) :
    2 ≤ popcount (bucket minute) + popcount (affix minute) ∧
      popcount (bucket minute) + popcount (affix minute) ≤ 6 := by
  have every : ∀ m < 60, 2 ≤ popcount (bucket m) + popcount (affix m) ∧
      popcount (bucket m) + popcount (affix m) ≤ 6 := by decide
  exact every minute legal

theorem wordPattern_popcount_bounds (c : Config) (hour : Nat) {minute : Nat} (legal : minute < 60) :
    3 ≤ popcount (wordPattern c hour minute) ∧ popcount (wordPattern c hour minute) ≤ 8 := by
  have rest := popcount_bucket_affix_bounds legal
  obtain ⟨width, -⟩ := hourEntry_legal c (shownHour hour minute)
  rw [popcount_wordPattern]
  omega

/-- R74: `H.prev_pattern`'s sentinel (R94) is no pattern. -/
theorem wordPattern_ne_zero (c : Config) (hour : Nat) {minute : Nat} (legal : minute < 60) :
    wordPattern c hour minute ≠ 0#32 := by
  intro zero
  have some_bits := (wordPattern_popcount_bounds c hour legal).1
  rw [zero] at some_bits
  exact absurd some_bits (by decide)

/-- 95_test_vectors.md table V2: the hour word shown, by the hour modulo 12. -/
theorem shownHour_eq_ite (hour minute : Nat) :
    shownHour hour minute = if minute / 5 < 7 then (hour + 11) % 12 + 1 else hour % 12 + 1 := by
  unfold shownHour to12 effHour
  split_ifs <;> omega

/-! ### The hour table -/

/-- The table of entries of given widths and shifts (R66). -/
def hourTable (w sh : Nat → Nat) (conforming : ∀ h, 1 ≤ h → h ≤ 12 → HourShape.Legal (w h) (sh h)) :
    Vector HourShape 12 :=
  Vector.ofFn fun i => ⟨w (i.val + 1), sh (i.val + 1), conforming _ (by omega) (by omega)⟩

theorem hourMask_hourTable (c : Config) {w sh : Nat → Nat}
    (conforming : ∀ h, 1 ≤ h → h ≤ 12 → HourShape.Legal (w h) (sh h)) {h : Nat} (low : 1 ≤ h) (high : h ≤ 12) :
    hourMask { c with hours := hourTable w sh conforming } h = HourShape.maskOf (w h) (sh h) := by
  have index : (h - 1) % 12 + 1 = h := by omega
  simp [hourMask, hourEntry, hourTable, HourShape.mask, Vector.get_ofFn, index]

/-! ### Operands out of range -/

/-- R54, R61: an operand out of range takes the refusal, the hour first. -/
theorem exec_translate_of_out_of_range {hour : BitVec 5} {minute : BitVec 6} (s : State)
    (out : 24 ≤ hour.toNat ∨ 60 ≤ minute.toNat) :
    exec (.translate hour minute) s =
      .next (s.refuse (if 24 ≤ hour.toNat then .hourRange else .minuteRange)) := by
  by_cases late : 24 ≤ hour.toNat
  · simp only [exec, execTranslate, if_pos late]
  · simp only [exec, execTranslate, if_neg late, if_pos (out.resolve_left late)]

/-! ### The statements -/

/-- Settles O15: the answer is one refusal, and the laws of `refuse` give the frame. -/
theorem translateRefusesOutOfRange : Obligations.TranslateRefusesOutOfRange := by
  intro hour minute s out
  refine ⟨_, exec_translate_of_out_of_range s out, ?err, ?block, ?adjust, ?mark, ?frame⟩
  case err => rw [State.refuse_ports]; split_ifs <;> rfl
  all_goals simp

/-- Settles O16: nine literals, their bits one by one, and two unions. -/
theorem maskLiterals : Obligations.MaskLiterals := by
  refine ⟨?decimal, ?hexadecimal, ?bits, ?bucketUnion, ?affixUnion⟩
  all_goals decide

/-- Settles O19: an entry of a configuration carries its constraints, and conforming entries make a table. -/
theorem hourTableIsAnyConformingOne : Obligations.HourTableIsAnyConformingOne := by
  refine ⟨fun c h _ _ => ?conforms, fun c w sh conforming => ?configurable⟩
  case conforms =>
    obtain ⟨width, low, high, -⟩ := hourEntry_legal c h
    exact ⟨_, _, width, low, high, rfl, hourMask_disjoint c h⟩
  case configurable =>
    exact ⟨{ c with hours := hourTable w sh conforming }, rfl, fun _ => hourMask_hourTable c conforming⟩

/-- Settles O20: the parts lie under masks that share no bit. -/
theorem patternPartsAreDisjoint : Obligations.PatternPartsAreDisjoint := by
  intro c hour minute _ _
  exact ⟨rfl, bucket_and_affix minute, bucket_and_hourMask c minute _, affix_and_hourMask c minute _,
    toNat_wordPattern c hour minute⟩

/-- Settles O21: under the bucket bits the driven pattern is the selected mask. -/
theorem patternHoldsOneBucket : Obligations.PatternHoldsOneBucket := by
  refine ⟨fun hour minute s hh hm => ⟨_, exec_translate_of_legal s hh hm, ?mask, ?listed⟩, by decide⟩
  case mask => exact wordPattern_and_bucketBits _ _ _
  case listed =>
    have every : ∀ m < 60, bucket m ∈
        [oClock, fiveMinutes, tenMinutes, quarter, twentyMinutes, twentyFiveMinutes, half] := by decide
    exact every _ hm

/-- Settles O22: under the affix bits the driven pattern is AFFIX. -/
theorem patternHoldsOneAffix : Obligations.PatternHoldsOneAffix := by
  intro hour minute s hh hm
  exact ⟨_, exec_translate_of_legal s hh hm, wordPattern_and_affixBits _ _ _⟩

/-- Settles O23: outside both groups the driven pattern is the hour word of EFF_HOUR. -/
theorem patternHoldsIdiomaticHour : Obligations.PatternHoldsIdiomaticHour := by
  intro hour minute s hh hm
  refine ⟨_, exec_translate_of_legal s hh hm, (wordPattern_and_hourBits _ _ _).trans ?_⟩
  rw [shownHour, effHour]
  split_ifs <;> rfl

/-- Settles O24: the bits of the disjoint parts add up, two to six of the minute's and one or two of the hour word. -/
theorem patternShape : Obligations.PatternShape := by
  intro c hour minute _ hm
  exact ⟨popcount_wordPattern c hour minute, (wordPattern_popcount_bounds c hour hm).1,
    (wordPattern_popcount_bounds c hour hm).2, wordPattern_ne_zero c hour hm⟩

/-- Settles O25: outside the hour word a pattern is its slot's word, and the twelve differ. -/
theorem patternTellsFiveMinuteSlot : Obligations.PatternTellsFiveMinuteSlot := by
  intro c c' hour hour' minute minute' _ _ hm hm'
  rw [wordPattern_and_minuteBits, wordPattern_and_minuteBits, bucket_or_affix hm, bucket_or_affix hm']
  exact ⟨slotWords_injective (by omega) (by omega), fun slot => by rw [slot]⟩

/-- Settles O27: the slot's word, and TO12 of EFF_HOUR worked out in the slots before and from minute 35. -/
theorem translatorEqualsTwelveEntryTable : Obligations.TranslatorEqualsTwelveEntryTable := by
  intro c hour minute _ hm
  rw [wordPattern, bucket_or_affix hm, shownHour_eq_ite hour minute]
  rfl

end Sys2Proof.Machine
end

section
/-! PROOFS. The block's operations (41_debounce_edit.md, 20_memory.md, 60_exceptions.md): what EDGE.R, CONSUME and
STATUS answer, which operation writes which field of S, and the statements on single operations and on runs of them
(R34, R37, R77-R91, R107-R109, R111). -/

namespace Sys2Proof.Machine

/-! ### The arithmetic on timestamps -/

/-- R84: the elapsed time against the threshold, as the difference of two integers. -/
theorem lt_elapsed_iff {c : Config} {n ts t : Nat} :
    n < elapsed c ts t ↔ (n : Int) < ((ts : Int) - t) % ((2 ^ c.tsWidth : Nat) : Int) := Int.lt_toNat

theorem elapsed_eq_toNat_ofInt (c : Config) (ts t : Nat) :
    elapsed c ts t = (BitVec.ofInt c.tsWidth ((ts : Int) - t)).toNat := (BitVec.toNat_ofInt _).symm

/-- R84: the `TS_W`-bit subtraction. -/
theorem elapsed_eq_toNat_sub (c : Config) (ts t : Nat) :
    elapsed c ts t = (BitVec.ofNat c.tsWidth ts - BitVec.ofNat c.tsWidth t).toNat := by
  rw [elapsed_eq_toNat_ofInt, sub_eq_add_neg, BitVec.ofInt_add, BitVec.ofInt_neg, BitVec.ofInt_natCast,
    BitVec.ofInt_natCast, ← sub_eq_add_neg]

/-- R129: a press that took `d` is timed as `d` modulo `2 ^ TS_W`. -/
theorem elapsed_add_left (c : Config) (t d : Nat) : elapsed c (t + d) t = d % 2 ^ c.tsWidth := by
  rw [elapsed, Int.natCast_add, add_sub_cancel_left, ← Int.natCast_emod, Int.toNat_natCast]

theorem timestamp_mod (c : Config) (ts : Nat) : timestamp c (ts % 2 ^ c.tsWidth) = timestamp c ts := Nat.mod_mod _ _

/-! ### EDGE.R -/

theorem Block.setChan_of_idle {b : Block} {ch : Channel} (idle : (b.chan ch).down = false) :
    b.setChan ch { b.chan ch with down := false } = b := by
  rw [← idle]
  cases ch <;> rfl

/-- R79: a release that finds its channel idle leaves S as it was. -/
theorem release_of_idle {ch : Channel} {s : State} (idle : (s.block.chan ch).down = false) :
    release ch s = s.accept := by
  rw [release, State.setChan, State.accept_block, Block.setChan_of_idle idle]
  rfl

/-- R79: an EDGE.R that is no clean release ends the press, if there is one, and posts nothing, whatever the slot. -/
theorem exec_edgeR_of_not_clean {ch : Channel} {ts : Nat} {s : State} (bounce : ¬ isCleanRelease ch ts s = true) :
    exec (.edgeR ch ts) s = .next (release ch s) := by
  cases down : (s.block.chan ch).down with
  | true => exact exec_edgeR_of_bounce bounce down
  | false =>
    rw [release_of_idle down]
    exact (if_neg bounce).trans (if_neg (by rw [down]; decide))

/-- R79, R80: the slot after EDGE.R. -/
def slotAfterRelease (ch : Channel) (ts : Nat) (s : State) : EventCode :=
  if isCleanRelease ch ts s then postSlot s.config.eventCollision s.block.evt (eventOf ch) else s.block.evt

/-- R79: the state after EDGE.R. -/
def endPress (ch : Channel) (ts : Nat) (s : State) : State := (release ch s).setEvt (slotAfterRelease ch ts s)

@[simp] theorem endPress_config (ch : Channel) (ts : Nat) (s : State) : (endPress ch ts s).config = s.config := rfl

@[simp] theorem endPress_evt (ch : Channel) (ts : Nat) (s : State) :
    (endPress ch ts s).block.evt = slotAfterRelease ch ts s := rfl

@[simp] theorem endPress_chan (ch c : Channel) (ts : Nat) (s : State) :
    (endPress ch ts s).block.chan c = (release ch s).block.chan c := Block.chan_withEvt _ _ _

theorem endPress_of_not_clean {ch : Channel} {ts : Nat} {s : State}
    (bounce : ¬ isCleanRelease ch ts s = true) :
    endPress ch ts s = release ch s := by
  rw [endPress, slotAfterRelease, if_neg bounce, ← release_evt ch s]
  rfl

/-- R79: EDGE.R ends the press and writes the slot; it stops only where it posts over the slot value 3. -/
theorem exec_edgeR_eq_next {ch : Channel} {ts : Nat} {s t : State} :
    exec (.edgeR ch ts) s = .next t ↔
      (isCleanRelease ch ts s = true → s.block.evt ≠ 3#2) ∧
        t = endPress ch ts s := by
  by_cases clean : isCleanRelease ch ts s = true
  · have posts : exec (.edgeR ch ts) s = (release ch s).post ch := if_pos clean
    rw [posts, post_eq_next, release_evt, release_config, endPress, slotAfterRelease, if_pos clean]
    simp [clean]
  · rw [exec_edgeR_of_not_clean clean, endPress_of_not_clean clean]
    simp [clean, eq_comm]

/-- R79: from a legal slot EDGE.R completes. -/
theorem exec_edgeR {ch : Channel} {ts : Nat} {s : State} (legal : s.block.evt ≠ 3#2) :
    exec (.edgeR ch ts) s = .next (endPress ch ts s) :=
  exec_edgeR_eq_next.mpr ⟨fun _ => legal, rfl⟩

theorem slotAfterRelease_of_clean {ch : Channel} {ts : Nat} {s : State} (clean : isCleanRelease ch ts s = true)
    (empty : s.block.evt = 0#2) : slotAfterRelease ch ts s = eventOf ch := by
  rw [slotAfterRelease, if_pos clean]
  exact if_pos empty

/-- R79 to R80: the slot keeps its event, or holds the channel's after a clean release. -/
theorem slotAfterRelease_cases (ch : Channel) (ts : Nat) (s : State) :
    slotAfterRelease ch ts s = s.block.evt ∨
      (isCleanRelease ch ts s = true ∧ slotAfterRelease ch ts s = eventOf ch) := by
  unfold slotAfterRelease
  split_ifs with clean
  · obtain new | ⟨pending, -⟩ := postSlot_cases s.config.eventCollision s.block.evt (eventOf ch)
    · exact .inr ⟨clean, new⟩
    · exact .inl pending
  · exact .inl rfl

theorem release_chan_other {ch other : Channel} (s : State) (h : other ≠ ch) :
    (release ch s).block.chan other = s.block.chan other := Block.chan_setChan_other _ _ h

theorem startPress_chan_other {ch other : Channel} (ts : Nat) (s : State) (h : other ≠ ch) :
    (startPress ch ts s).block.chan other = s.block.chan other := Block.chan_setChan_other _ _ h

/-- Whether a release is clean depends on the configuration and on its channel alone. -/
theorem isCleanRelease_congr {ch : Channel} {ts : Nat} {s t : State} (same_config : t.config = s.config)
    (same_chan : t.block.chan ch = s.block.chan ch) : isCleanRelease ch ts t = isCleanRelease ch ts s := by
  rw [isCleanRelease, isCleanRelease, same_config, same_chan]

/-! ### CONSUME and STATUS -/

/-- R81: the state after CONSUME. -/
def takeEvent (s : State) : State :=
  (s.accept.setBlock (consumeSlot s.config.consumeClearScope s.block)).driveEvent s.block.evt

theorem exec_consume_eq_next {s t : State} :
    exec .consume s = .next t ↔ s.block.evt ≠ 3#2 ∧ t = takeEvent s := onLegalSlot_eq_next

/-- R81: from a legal slot CONSUME completes. -/
theorem exec_consume {s : State} (legal : s.block.evt ≠ 3#2) : exec .consume s = .next (takeEvent s) :=
  exec_consume_eq_next.mpr ⟨legal, rfl⟩

@[simp] theorem takeEvent_config (s : State) : (takeEvent s).config = s.config := rfl
@[simp] theorem takeEvent_block (s : State) :
    (takeEvent s).block = consumeSlot s.config.consumeClearScope s.block := rfl
@[simp] theorem takeEvent_evtOut (s : State) : (takeEvent s).ports.evtOut = s.block.evt := rfl
@[simp] theorem takeEvent_adj (s : State) : (takeEvent s).ports.adj = adjOf s.block.evt := rfl
@[simp] theorem takeEvent_err (s : State) : (takeEvent s).ports.err = 0#3 := rfl
@[simp] theorem takeEvent_adjust (s : State) : (takeEvent s).adjust = adjustOf s.block.evt := rfl
@[simp] theorem takeEvent_freeCount (s : State) : (takeEvent s).freeCount = s.freeCount + 1 := rfl

theorem takeEvent_host (s : State) : HostUnchanged s (takeEvent s) := ⟨rfl, rfl, rfl, rfl, rfl, rfl, rfl⟩

theorem consumeSlot_of_empty (scope : ConsumeClearScope) {b : Block} (empty : b.evt = 0#2) :
    consumeSlot scope b = b := if_pos empty

@[simp] theorem consumeSlot_evt (scope : ConsumeClearScope) (b : Block) : (consumeSlot scope b).evt = 0#2 := by
  by_cases empty : b.evt = 0#2
  · rw [consumeSlot_of_empty scope empty, empty]
  · cases scope <;> simp [consumeSlot, empty]

/-- R81: CONSUME cancels a press only with an event and under `event_and_presses`. -/
theorem consumeSlot_chan (scope : ConsumeClearScope) (b : Block) (ch : Channel) :
    (consumeSlot scope b).chan ch =
      if b.evt ≠ 0#2 ∧ scope = .eventAndPresses then { b.chan ch with down := false } else b.chan ch := by
  by_cases empty : b.evt = 0#2
  · rw [consumeSlot_of_empty scope empty, if_neg (by simp [empty])]
  · cases scope <;> cases ch <;> simp [consumeSlot, empty, Block.chan]

/-- R83: the state after STATUS. -/
def showStatus (s : State) : State := s.accept.driveStat (statOf s.block)

theorem exec_status_eq_next {s t : State} :
    exec .status s = .next t ↔ s.block.evt ≠ 3#2 ∧ t = showStatus s := onLegalSlot_eq_next

/-- R83: from a legal slot STATUS completes. -/
theorem exec_status {s : State} (legal : s.block.evt ≠ 3#2) : exec .status s = .next (showStatus s) :=
  exec_status_eq_next.mpr ⟨legal, rfl⟩

@[simp] theorem showStatus_block (s : State) : (showStatus s).block = s.block := rfl
@[simp] theorem showStatus_stat (s : State) : (showStatus s).ports.stat = statOf s.block := rfl

theorem showStatus_host (s : State) : HostUnchanged s (showStatus s) := ⟨rfl, rfl, rfl, rfl, rfl, rfl, rfl⟩

/-! ### Which operation writes which field of S -/

/-- R61, R107: TRANSLATE always answers a next state, and with S as it was. -/
theorem exec_translate_block (hour : BitVec 5) (minute : BitVec 6) (s : State) :
    ∃ t, exec (.translate hour minute) s = .next t ∧ t.block = s.block := by
  by_cases legal : hour.toNat < 24 ∧ minute.toNat < 60
  · exact ⟨_, exec_translate_of_legal s legal.1 legal.2, rfl⟩
  · exact ⟨_, exec_translate_of_out_of_range s (by omega), rfl⟩

/-- R34, R37: what an operation does to the slot: nothing, a post, or a CONSUME. -/
theorem exec_slot_cases {i : Instr} {s t : State} (h : exec i s = .next t) :
    (i ≠ .consume ∧ t.block.evt = s.block.evt) ∨
    (∃ ch ts, i = .edgeR ch ts ∧ isCleanRelease ch ts s = true ∧ t.block.evt = eventOf ch) ∨
    (i = .consume ∧ t.block.evt = 0#2 ∧ t.ports.evtOut = s.block.evt) := by
  cases i with
  | translate hour minute =>
    obtain ⟨u, answer, same⟩ := exec_translate_block hour minute s
    cases answer.symm.trans h
    exact .inl ⟨nofun, congrArg Block.evt same⟩
  | edgeF ch ts =>
    cases (exec_edgeF ch ts s).symm.trans h
    exact .inl ⟨nofun, startPress_evt ch ts s⟩
  | edgeR ch ts =>
    obtain ⟨-, rfl⟩ := exec_edgeR_eq_next.mp h
    obtain kept | ⟨clean, new⟩ := slotAfterRelease_cases ch ts s
    · exact .inl ⟨nofun, kept⟩
    · exact .inr (.inl ⟨ch, ts, rfl, clean, new⟩)
  | consume =>
    obtain ⟨-, rfl⟩ := exec_consume_eq_next.mp h
    exact .inr (.inr ⟨rfl, by simp, rfl⟩)
  | status =>
    obtain ⟨-, rfl⟩ := exec_status_eq_next.mp h
    exact .inl ⟨nofun, rfl⟩

/-- R17, R34, R86: what an operation does to a channel: nothing, the start of a press, its end, or its cancelling. -/
theorem exec_chan_cases {i : Instr} {s t : State} (h : exec i s = .next t) (ch : Channel) :
    t.block.chan ch = s.block.chan ch ∨
    (∃ ts, i = .edgeF ch ts ∧ t.block.chan ch = { down := true, ts := timestamp s.config ts }) ∨
    (∃ ts, i = .edgeR ch ts ∧ (s.block.chan ch).down = true ∧
      t.block.chan ch = { s.block.chan ch with down := false }) ∨
    (i = .consume ∧ s.block.evt ≠ 0#2 ∧ s.config.consumeClearScope = .eventAndPresses ∧
      t.block.chan ch = { s.block.chan ch with down := false }) := by
  cases i with
  | translate hour minute =>
    obtain ⟨u, answer, same⟩ := exec_translate_block hour minute s
    cases answer.symm.trans h
    exact .inl (congrArg (fun b => b.chan ch) same)
  | edgeF c ts =>
    cases (exec_edgeF c ts s).symm.trans h
    by_cases own : ch = c
    · subst own
      exact .inr (.inl ⟨ts, rfl, startPress_chan ch ts s⟩)
    · exact .inl (startPress_chan_other ts s own)
  | edgeR c ts =>
    obtain ⟨-, rfl⟩ := exec_edgeR_eq_next.mp h
    rw [endPress_chan]
    by_cases own : ch = c
    · subst own
      cases down : (s.block.chan ch).down with
      | true => exact .inr (.inr (.inl ⟨ts, rfl, rfl, release_chan ch s⟩))
      | false => exact .inl (by rw [release_of_idle down]; rfl)
    · exact .inl (release_chan_other s own)
  | consume =>
    obtain ⟨-, rfl⟩ := exec_consume_eq_next.mp h
    rw [takeEvent_block, consumeSlot_chan]
    split_ifs with cancels
    · exact .inr (.inr (.inr ⟨rfl, cancels.1, cancels.2, rfl⟩))
    · exact .inl rfl
  | status =>
    obtain ⟨-, rfl⟩ := exec_status_eq_next.mp h
    exact .inl rfl

end Sys2Proof.Machine
end

section
/-! PROOFS. The statements on single operations of the block (41_debounce_edit.md R78-R84, R91) and on its command
interface (30_encoding.md R42, 60_exceptions.md R107-R109, 45_host_render_loop.md R103). -/

namespace Sys2Proof.Machine

/-! ### Single operations -/

/-- Settles O28: the answer is `startPress`. -/
theorem fallingEdgeStartsPress : Obligations.FallingEdgeStartsPress := by
  intro ch ts s
  refine ⟨_, exec_edgeF ch ts s, startPress_chan ch ts s, fun other h => startPress_chan_other ts s h,
    startPress_evt ch ts s, rfl, rfl, ?host⟩
  case host => simp [HostUnchanged, startPress]

/-- R79, R80: the slot after EDGE.R, by the two conditions that decide it. -/
theorem slotAfterRelease_eq_ite (ch : Channel) (ts : Nat) (s : State) :
    slotAfterRelease ch ts s =
      if (s.block.chan ch).down = true ∧
          50 < ((ts : Int) - (s.block.chan ch).ts) % ((2 ^ s.config.tsWidth : Nat) : Int) then
        (if s.block.evt = 0#2 ∨ s.config.eventCollision = .overwrite then eventOf ch else s.block.evt)
      else s.block.evt := by
  simp only [slotAfterRelease, isCleanRelease_iff, lt_elapsed_iff, postSlot_eq_ite, Nat.cast_ofNat]

/-- Settles O29: the answer is `endPress`. -/
theorem risingEdgeEndsPress : Obligations.RisingEdgeEndsPress := by
  intro ch ts s legal
  refine ⟨_, exec_edgeR legal, ?own, ?others, ?slot, rfl, rfl, ?host⟩
  case own => simp
  case others =>
    intro other h
    rw [endPress_chan, release_chan_other s h]
  case slot => exact slotAfterRelease_eq_ite ch ts s
  case host => simp [HostUnchanged, endPress, release]

/-- Settles O30: a release that is not clean answers `release`, which writes the DOWN bit and nothing else of S. -/
theorem bounceCompletesWithAnySlot : Obligations.BounceCompletesWithAnySlot := by
  intro ch ts s bounce
  have not_clean : ¬ isCleanRelease ch ts s = true := by
    rw [isCleanRelease_iff, lt_elapsed_iff]
    rintro ⟨down, above⟩
    obtain idle | short := bounce
    · rw [idle] at down; cases down
    · exact absurd above (not_lt.mpr short)
  refine ⟨_, exec_edgeR_of_not_clean not_clean, rfl, rfl, rfl, ?host⟩
  simp [HostUnchanged, release]

/-- R82: the edit command of each legal event. -/
theorem adjustOf_of_legal {e : EventCode} (legal : e ≠ 3#2) :
    adjustOf e = if e = 1#2 then some 5#32 else if e = 2#2 then some (BitVec.ofInt 32 (-5)) else none := by
  have every : ∀ x : EventCode, x ≠ 3#2 →
      adjustOf x = if x = 1#2 then some 5#32 else if x = 2#2 then some (BitVec.ofInt 32 (-5)) else none := by decide
  exact every e legal

/-- Settles O31: the answer is `takeEvent`. -/
theorem consumeReturnsAndClears : Obligations.ConsumeReturnsAndClears := by
  intro s legal
  refine ⟨_, exec_consume legal, rfl, ?slot, rfl, adjustOf_of_legal legal, fun ch => ?presses, rfl, takeEvent_host s⟩
  case slot => simp
  case presses =>
    rw [takeEvent_block, consumeSlot_chan]
    split_ifs <;> exact ⟨rfl, rfl⟩

/-- R51: the fields of STAT. -/
theorem statOf_fields (b : Block) :
    (statOf b).extractLsb' 0 2 = b.evt ∧ (statOf b).getLsbD 2 = b.ch1.down ∧ (statOf b).getLsbD 3 = b.ch2.down := by
  have every : ∀ (d1 d2 : Bool) (e : EventCode), (statOf ⟨⟨d1, 0⟩, ⟨d2, 0⟩, e⟩).extractLsb' 0 2 = e ∧
      (statOf ⟨⟨d1, 0⟩, ⟨d2, 0⟩, e⟩).getLsbD 2 = d1 ∧ (statOf ⟨⟨d1, 0⟩, ⟨d2, 0⟩, e⟩).getLsbD 3 = d2 := by decide
  exact every b.ch1.down b.ch2.down b.evt

/-- Settles O32: the answer is `showStatus`. -/
theorem statusShowsSlotAndPresses : Obligations.StatusShowsSlotAndPresses := by
  intro s legal
  obtain ⟨slot, down1, down2⟩ := statOf_fields s.block
  exact ⟨_, exec_status legal, slot, down1, down2, rfl, rfl, rfl, showStatus_host s⟩

/-- Settles O33: each of the three ends in the test of the slot. -/
theorem illegalSlotFaults : Obligations.IllegalSlotFaults := by
  intro s illegal
  refine ⟨onLegalSlot_eq_fault.mpr illegal, onLegalSlot_eq_fault.mpr illegal, fun ch ts down above => ?_⟩
  have clean : isCleanRelease ch ts s = true := isCleanRelease_iff.mpr ⟨down, lt_elapsed_iff.mpr above⟩
  have posts : exec (.edgeR ch ts) s = (release ch s).post ch := if_pos clean
  rw [posts]
  exact onLegalSlot_eq_fault.mpr ((release_evt ch s).trans illegal)

/-- Settles O34: the three readings of one difference. -/
theorem elapsedIsWrappingSubtraction : Obligations.ElapsedIsWrappingSubtraction :=
  fun c ts t d => ⟨elapsed_eq_toNat_sub c ts t, elapsed_lt c ts t, elapsed_add_left c t d⟩

/-- Settles O35: both operations read their operand through `timestamp`. -/
theorem timestampCountsModuloWidth : Obligations.TimestampCountsModuloWidth := by
  intro ch ts s
  refine ⟨?falling, ?rising⟩
  case falling => simp only [exec_edgeF, startPress, timestamp_mod]
  case rising =>
    have same : isCleanRelease ch (ts % 2 ^ s.config.tsWidth) s = isCleanRelease ch ts s := by
      rw [isCleanRelease, isCleanRelease, timestamp_mod]
    simp only [exec, execEdgeR, same]

/-- Settles O44: each operation is run once more on its own answer. -/
theorem repeatedOperations : Obligations.RepeatedOperations := by
  intro s legal
  refine ⟨?status, fun hour minute hh hm => ?translate, fun ch ts => ?edgeF, ?consume⟩
  case status => exact ⟨_, _, exec_status legal, exec_status (s := showStatus s) legal, rfl⟩
  case translate => exact ⟨_, _, exec_translate_of_legal s hh hm, exec_translate_of_legal _ hh hm, rfl⟩
  case edgeF =>
    refine ⟨_, _, exec_edgeF ch ts s, exec_edgeF ch ts _, ?_⟩
    exact Block.setChan_setChan s.block ch _ _
  case consume =>
    have empty : (takeEvent s).block.evt = 0#2 := by simp
    refine ⟨_, _, exec_consume legal, exec_consume (by rw [empty]; decide), empty, ?_⟩
    exact consumeSlot_of_empty _ empty

/-- Settles O45: TRANSLATE reads the configuration, which no operation writes, and leaves S. -/
theorem translatorAndFsmAreSeparate : Obligations.TranslatorAndFsmAreSeparate := by
  refine ⟨fun i s t hour minute h hh hm => ?_, fun s hour minute => exec_translate_block hour minute s⟩
  refine ⟨_, _, exec_translate_of_legal s hh hm, exec_translate_of_legal t hh hm, ?_⟩
  simp [(exec_leaves_host h).1]

/-! ### The command interface -/

/-- R42, R56: an agent that issues a well-formed instruction by its words has it performed. -/
theorem issueInstr_of_wellFormed {i : Instr} (wf : i.wellFormed = true) (s : State) : issueInstr i s = exec i s :=
  issue_of_decode_ok (decodeReadsBackEncode i wf)

theorem edge_instr_wellFormed (e : Edge) (ch : Channel) (ts : Nat) : (e.instr ch ts).wellFormed = true := by
  cases e <;> rfl

/-- R103: an edge notification is one operation, once the edge source is enabled. -/
theorem edgeNotification_eq (ch : Channel) (e : Edge) (ts : Nat) (s : State) :
    edgeNotification ch e ts s = if s.loop.edgesEnabled then exec (e.instr ch ts) s else .next s := by
  rw [edgeNotification, issueInstr_of_wellFormed (edge_instr_wellFormed e ch ts)]

/-- R109: a well-formed instruction completes from every legal slot with ERR 0 and leaves the host. -/
theorem exec_of_wellFormed {i : Instr} {s : State} (wf : i.wellFormed = true) (legal : s.block.evt ≠ 3#2) :
    ∃ t, exec i s = .next t ∧ t.ports.err = 0#3 ∧ HostUnchanged s t := by
  cases i with
  | translate hour minute =>
    simp only [Instr.wellFormed, Bool.and_eq_true, decide_eq_true_iff] at wf
    obtain ⟨t, answer, -, err, -, -, host⟩ := translateYieldsPattern hour minute s wf.1 wf.2
    exact ⟨t, answer, err, host⟩
  | edgeF ch ts =>
    obtain ⟨t, answer, -, -, -, err, -, host⟩ := fallingEdgeStartsPress ch ts s
    exact ⟨t, answer, err, host⟩
  | edgeR ch ts =>
    obtain ⟨t, answer, -, -, -, err, -, host⟩ := risingEdgeEndsPress ch ts s legal
    exact ⟨t, answer, err, host⟩
  | consume => exact ⟨_, exec_consume legal, rfl, takeEvent_host s⟩
  | status => exact ⟨_, exec_status legal, rfl, showStatus_host s⟩

/-- Settles O8: the turn is the word's, and the word its instruction's. -/
theorem stepRunsDecodedCommand : Obligations.StepRunsDecodedCommand :=
  fun _ _ _ _ _ given accepted => (step_of_turn given).trans (issue_of_decode_ok accepted)

/-- Settles O9: an edge notification issues the words of a well-formed instruction. -/
theorem stepRunsEdgeNotification : Obligations.StepRunsEdgeNotification := by
  intro s ch e ts rest given
  rw [step_of_turn given, takeTurn, edgeNotification_eq]
  cases e <;> rfl

/-- Settles O10: the answer is `refuse`, and its laws give the frame. -/
theorem refusedWordChangesNoState : Obligations.RefusedWordChangesNoState := by
  intro s cmd ts rest code given rejected
  have answer : step s = .next ({ s with turns := rest }.refuse code) :=
    (step_of_turn given).trans (issue_of_decode_error rejected)
  refine ⟨_, answer, ?block, ?err, ?adjust, ?mark, ?frame⟩
  all_goals simp

theorem refuseCode_err_range (code : RefuseCode) : code.err.toNat ≤ 4 ∧ code.err ≠ 0#3 := by cases code <;> decide

/-- Settles O11: an accepted word is a well-formed instruction's, and a refused one drives a code from 1 to 4. -/
theorem errTellsAcceptance : Obligations.ErrTellsAcceptance := by
  intro s cmd ts legal
  cases decoded : decode cmd ts with
  | ok i =>
    obtain ⟨-, wf, -⟩ := decode_eq_ok_iff.mp decoded
    obtain ⟨t, answer, err, -⟩ := exec_of_wellFormed wf legal
    refine ⟨t, (issue_of_decode_ok decoded).trans answer, by rw [err]; decide, fun _ => ⟨i, rfl⟩, fun _ => err⟩
  | error code =>
    obtain ⟨small, nonzero⟩ := refuseCode_err_range code
    refine ⟨_, issue_of_decode_error decoded, small, fun zero => absurd zero nonzero, ?_⟩
    rintro ⟨i, accepted⟩
    cases accepted

/-- Settles O12: `exec_of_wellFormed`. -/
theorem legalOperationNeverFails : Obligations.LegalOperationNeverFails := fun _ _ => exec_of_wellFormed

end Sys2Proof.Machine
end

section
/-! PROOFS. The statements on runs of operations (41_debounce_edit.md R86-R90, 20_memory.md R34, R37), and that no
step reads a result port (10_state.md R26). -/

namespace Sys2Proof.Machine

/-- A run that begins with an operation that completes goes on from its answer. -/
theorem runInstrs_cons {i : Instr} {is : List Instr} {s t : State} (h : exec i s = .next t) :
    runInstrs (i :: is) s = runInstrs is t := by simp only [runInstrs, h]

/-! ### Which operation writes which field -/

/-- Settles O40: the writers of `exec_slot_cases` and `exec_chan_cases` that change the field. -/
theorem onlyTheseOperationsWriteS : Obligations.OnlyTheseOperationsWriteS := by
  intro i s t h
  refine ⟨fun changed => ?slot, fun ch changed => ?press⟩
  case slot =>
    obtain ⟨-, kept⟩ | ⟨ch, ts, rfl, clean, new⟩ | ⟨rfl, empty, -⟩ := exec_slot_cases h
    · exact absurd kept changed
    · exact .inl ⟨ch, ts, rfl, by simp [postsOn, clean], new⟩
    · exact .inr ⟨rfl, empty⟩
  case press =>
    obtain kept | ⟨ts, rfl, -⟩ | ⟨ts, rfl, down, -⟩ | ⟨rfl, event, scope, -⟩ := exec_chan_cases h ch
    · exact absurd kept changed
    · exact .inl ⟨ts, rfl⟩
    · exact .inr (.inl ⟨ts, rfl, down⟩)
    · exact .inr (.inr ⟨rfl, event, scope⟩)

/-! ### Events posted and consumed -/

/-- R88 at one operation: an event consumed or pending after was pending before or posted. -/
theorem exec_consumed_add_pending_le (ch : Channel) {i : Instr} {s t : State} (h : exec i s = .next t) :
    (if consumedOn ch i t = true then 1 else 0) + (if t.block.evt = eventOf ch then 1 else 0) ≤
      (if postsOn ch i s = true then 1 else 0) + (if s.block.evt = eventOf ch then 1 else 0) := by
  obtain ⟨other, kept⟩ | ⟨c, ts, rfl, clean, new⟩ | ⟨rfl, empty, out⟩ := exec_slot_cases h
  · have not_consumed : consumedOn ch i t = false := by simp [consumedOn, other]
    rw [not_consumed, kept]
    simp
  · by_cases own : c = ch
    · subst own
      simp [consumedOn, postsOn, clean, new]
    · have other : eventOf c ≠ eventOf ch := mt eventOf_injective own
      simp [consumedOn, new, other]
  · have not_pending : (0#2 : EventCode) ≠ eventOf ch := (eventOf_ne_zero ch).symm
    simp [consumedOn, empty, out, not_pending]

/-- Settles O39: the count is carried along the run, the event pending between two operations with it. -/
theorem atMostOneEditPerRelease : Obligations.AtMostOneEditPerRelease := by
  refine ⟨fun ch i s t => exec_consumed_add_pending_le ch, fun ch is => ?_⟩
  induction is with
  | nil => exact fun s => Nat.zero_le _
  | cons i is ih =>
    intro s
    simp only [countConsumed, countPosts]
    cases answer : exec i s with
    | next t =>
      have here := exec_consumed_add_pending_le ch answer
      have later := ih t
      simp only
      omega
    | fault r => exact Nat.zero_le _
    | refused r => exact Nat.zero_le _

/-! ### Bounce trains -/

/-- R90: what a press that is too short leaves. -/
theorem runInstrs_bounce {ch : Channel} {t0 t1 : Nat} {s : State} (short : elapsed s.config t1 t0 ≤ 50) :
    runInstrs (press ch t0 t1) s = .next (release ch (startPress ch t0 s)) ∧
      countPosts ch (press ch t0 t1) s = 0 := by
  have not_clean : ¬ isCleanRelease ch t1 (startPress ch t0 s) = true :=
    mt isCleanRelease_startPress.mp (Nat.not_lt.mpr short)
  have released := exec_edgeR_of_not_clean not_clean
  exact ⟨runInstrs_press released, by rw [countPosts_press released, if_neg (Nat.not_lt.mpr short)]⟩

/-- Counting posts along a run that can be cut. -/
theorem countPosts_append (ch : Channel) {s t : State} (xs ys : List Instr) (h : runInstrs xs s = .next t) :
    countPosts ch (xs ++ ys) s = countPosts ch xs s + countPosts ch ys t := by
  induction xs generalizing s with
  | nil => cases h; exact (Nat.zero_add _).symm
  | cons i is ih =>
    simp only [List.cons_append, runInstrs, countPosts] at h ⊢
    cases answer : exec i s with
    | next u => rw [answer] at h; simp only [ih h, Nat.add_assoc]
    | fault r => rw [answer] at h; cases h
    | refused r => rw [answer] at h; cases h

/-- R90: a train of short presses completes, posts nothing, and leaves the slot, the other channel and the
configuration. -/
theorem pressTrain_bounces (ch : Channel) (ps : List (Nat × Nat)) (s : State)
    (short : ∀ p ∈ ps, elapsed s.config p.2 p.1 ≤ 50) :
    countPosts ch (pressTrain ch ps) s = 0 ∧
      ∃ t, runInstrs (pressTrain ch ps) s = .next t ∧ t.block.evt = s.block.evt ∧
        (∀ other, other ≠ ch → t.block.chan other = s.block.chan other) ∧ t.config = s.config := by
  induction ps generalizing s with
  | nil => exact ⟨rfl, s, rfl, rfl, fun _ _ => rfl, rfl⟩
  | cons p ps ih =>
    obtain ⟨first, none_posted⟩ := runInstrs_bounce (ch := ch) (short p List.mem_cons_self)
    obtain ⟨rest_posts, t, rest, slot, others, config⟩ := ih (release ch (startPress ch p.1 s))
      (fun q hq => short q (List.mem_cons_of_mem p hq))
    refine ⟨?posts, t, (runInstrs_append _ _ first).trans rest, ?slot, fun other h => ?other, config⟩
    case posts => rw [pressTrain, countPosts_append ch _ _ first, none_posted, rest_posts]
    case slot => rw [slot, release_evt, startPress_evt]
    case other => rw [others other h, release_chan_other _ h, startPress_chan_other _ _ h]

/-- Settles O37: the train leaves an empty slot empty, and the clean press after it is the one of O36. -/
theorem bounceTrainPostsOnce : Obligations.BounceTrainPostsOnce := by
  intro ch ps s short
  obtain ⟨none_posted, t, train, slot, others, config⟩ := pressTrain_bounces ch ps s short
  refine ⟨⟨t, train, slot, others⟩, none_posted, fun t0 t1 above empty => ?_⟩
  have empty_after : t.block.evt = 0#2 := slot.trans empty
  have above_after : 50 < elapsed t.config t1 t0 := by rwa [config]
  obtain ⟨u, pressed, -, one_post, new⟩ := pressPostsAboveThreshold ch t0 t1 t (by rw [empty_after]; decide)
  refine ⟨?count, u, (runInstrs_append _ _ train).trans pressed, ?event⟩
  case count => rw [countPosts_append ch _ _ train, none_posted, one_post, if_pos above_after]
  case event => rw [new, if_pos ⟨above_after, .inl empty_after⟩]

/-! ### Edges of two channels -/

/-- R78, R79: a channel after an edge. -/
def chanAfterEdge (e : Edge) (ts : Nat) (c : Config) (d : Debounce) : Debounce :=
  match e with
  | .falling => { down := true, ts := timestamp c ts }
  | .rising => { d with down := false }

/-- R78-R80: the slot after an edge. -/
def slotAfterEdge (e : Edge) (ch : Channel) (ts : Nat) (s : State) : EventCode :=
  if postsOn ch (e.instr ch ts) s then postSlot s.config.eventCollision s.block.evt (eventOf ch) else s.block.evt

/-- R86: what an edge does to S: its own channel and the slot are written. -/
theorem exec_edge (e : Edge) (ch : Channel) (ts : Nat) {s : State} (legal : s.block.evt ≠ 3#2) :
    ∃ t, exec (e.instr ch ts) s = .next t ∧ t.config = s.config ∧
      t.block = { s.block.setChan ch (chanAfterEdge e ts s.config (s.block.chan ch)) with
        evt := slotAfterEdge e ch ts s } := by
  cases e with
  | falling =>
    refine ⟨_, exec_edgeF ch ts s, rfl, ?_⟩
    cases ch <;> rfl
  | rising =>
    refine ⟨_, exec_edgeR legal, rfl, ?_⟩
    simp [slotAfterEdge, endPress, slotAfterRelease, chanAfterEdge, Edge.instr, postsOn, release]

/-- Whether an edge posts depends on the configuration and on its channel alone. -/
theorem postsOn_edge_congr (e : Edge) {ch : Channel} (ts : Nat) {s t : State} (same_config : t.config = s.config)
    (same_chan : t.block.chan ch = s.block.chan ch) :
    postsOn ch (e.instr ch ts) t = postsOn ch (e.instr ch ts) s := by
  cases e with
  | falling => rfl
  | rising => simp only [Edge.instr, postsOn, isCleanRelease_congr same_config same_chan]

theorem slotAfterEdge_ne_three (e : Edge) (ch : Channel) (ts : Nat) {s : State} (legal : s.block.evt ≠ 3#2) :
    slotAfterEdge e ch ts s ≠ 3#2 := by
  unfold slotAfterEdge
  split_ifs
  · obtain new | ⟨pending, -⟩ := postSlot_cases s.config.eventCollision s.block.evt (eventOf ch)
    · rw [new]; exact eventOf_ne_three ch
    · rwa [pending]
  · exact legal

/-- R86: two edges of different channels, one after the other. -/
theorem runInstrs_two_edges (e e' : Edge) {ch ch' : Channel} (ts ts' : Nat) {s : State} (legal : s.block.evt ≠ 3#2)
    (different : ch' ≠ ch) :
    ∃ t, runInstrs [e.instr ch ts, e'.instr ch' ts'] s = .next t ∧
      t.block = { (s.block.setChan ch (chanAfterEdge e ts s.config (s.block.chan ch))).setChan ch'
          (chanAfterEdge e' ts' s.config (s.block.chan ch')) with
        evt := if postsOn ch' (e'.instr ch' ts') s then
            postSlot s.config.eventCollision (slotAfterEdge e ch ts s) (eventOf ch')
          else slotAfterEdge e ch ts s } := by
  obtain ⟨t, first, config, block⟩ := exec_edge e ch ts legal
  have chan' : t.block.chan ch' = s.block.chan ch' := by
    rw [block, Block.chan_withEvt, Block.chan_setChan_other _ _ different]
  have slot : t.block.evt = slotAfterEdge e ch ts s := by rw [block]
  have legal' : t.block.evt ≠ 3#2 := by rw [slot]; exact slotAfterEdge_ne_three e ch ts legal
  obtain ⟨u, second, -, block'⟩ := exec_edge e' ch' ts' legal'
  refine ⟨u, (runInstrs_cons first).trans (runInstrs_cons second), ?_⟩
  rw [block', slotAfterEdge, postsOn_edge_congr e' ts' config chan', config, chan', slot, block,
    Block.setChan_withEvt]

/-- Settles O38: each order writes both channels, and the slot by the edge that posts, if one does. -/
theorem edgesOfTwoChannelsCommute : Obligations.EdgesOfTwoChannelsCommute := by
  intro e e' ts ts' s legal not_both
  obtain ⟨t, order, block⟩ := runInstrs_two_edges e e' (ch := .ch1) (ch' := .ch2) ts ts' legal (by decide)
  obtain ⟨u, order', block'⟩ := runInstrs_two_edges e' e (ch := .ch2) (ch' := .ch1) ts' ts legal (by decide)
  refine ⟨t, u, order, order', ?_⟩
  rw [block, block', Block.setChan_comm _ _ _ (by decide : Channel.ch2 ≠ .ch1), slotAfterEdge, slotAfterEdge]
  by_cases posts : postsOn .ch1 (e.instr .ch1 ts) s = true
  · have quiet' : ¬ postsOn .ch2 (e'.instr .ch2 ts') s = true := fun posts' => not_both ⟨posts, posts'⟩
    rw [if_neg quiet', if_pos posts, if_pos posts, if_neg quiet']
  · rw [if_neg posts, if_neg posts]

/-! ### Releases and CONSUME -/

/-- Settles O41: the second release is clean too, and POST keeps the one event or the other. -/
theorem collisionLosesOneEvent : Obligations.CollisionLosesOneEvent := by
  intro ch other ts ts' s different empty clean clean'
  have first := exec_edgeR (ch := ch) (ts := ts) (s := s) (by rw [empty]; decide)
  have slot : (endPress ch ts s).block.evt = eventOf ch := slotAfterRelease_of_clean clean empty
  have legal : (endPress ch ts s).block.evt ≠ 3#2 := by rw [slot]; exact eventOf_ne_three ch
  have second := exec_edgeR (ch := other) (ts := ts') legal
  have same_chan : (endPress ch ts s).block.chan other = s.block.chan other := by
    rw [endPress_chan, release_chan_other s different.symm]
  have still_clean : isCleanRelease other ts' (endPress ch ts s) = true :=
    (isCleanRelease_congr (endPress_config ch ts s) same_chan).trans clean'
  have slot' : (endPress other ts' (endPress ch ts s)).block.evt =
      match s.config.eventCollision with
      | .overwrite => eventOf other
      | .drop => eventOf ch := by
    rw [endPress_evt, slotAfterRelease, if_pos still_clean, slot, endPress_config, postSlot_eq_ite]
    cases s.config.eventCollision <;> simp [eventOf_ne_zero]
  have legal' : (endPress other ts' (endPress ch ts s)).block.evt ≠ 3#2 := by
    rw [slot']
    split <;> exact eventOf_ne_three _
  have none_left : (takeEvent (endPress other ts' (endPress ch ts s))).block.evt = 0#2 := by simp
  refine ⟨_, _, ?run, slot', exec_consume (by rw [none_left]; decide), none_left, ?noAdjust⟩
  case run =>
    exact (runInstrs_cons first).trans ((runInstrs_cons second).trans (runInstrs_cons (exec_consume legal')))
  case noAdjust => rw [takeEvent_adjust, none_left]; rfl

/-- R81: whether a press in progress can still end in a post after a CONSUME of an event. -/
theorem isCleanRelease_takeEvent {ch : Channel} {ts : Nat} {s : State} (event : s.block.evt ≠ 0#2)
    (clean : isCleanRelease ch ts s = true) :
    isCleanRelease ch ts (takeEvent s) = decide (s.config.consumeClearScope = .eventOnly) := by
  have chan := consumeSlot_chan s.config.consumeClearScope s.block ch
  cases scope : s.config.consumeClearScope with
  | eventOnly =>
    rw [scope, if_neg (by simp)] at chan
    have same_chan : (takeEvent s).block.chan ch = s.block.chan ch := by rw [takeEvent_block, scope, chan]
    exact (isCleanRelease_congr (takeEvent_config s) same_chan).trans clean
  | eventAndPresses =>
    rw [scope, if_pos ⟨event, rfl⟩] at chan
    rw [isCleanRelease, takeEvent_block, scope, chan]
    rfl

/-- Settles O42: CONSUME empties the slot, and the release after it is clean by the scope. -/
theorem clearScopeDecidesPressInProgress : Obligations.ClearScopeDecidesPressInProgress := by
  intro ch ts s event legal clean
  have empty : (takeEvent s).block.evt = 0#2 := by simp
  have released := exec_edgeR (ch := ch) (ts := ts) (s := takeEvent s) (by rw [empty]; decide)
  refine ⟨_, (runInstrs_cons (exec_consume legal)).trans (runInstrs_cons released), ?_⟩
  have clean_after := isCleanRelease_takeEvent event clean
  cases scope : s.config.consumeClearScope with
  | eventOnly => exact slotAfterRelease_of_clean (by rw [clean_after, scope]; rfl) empty
  | eventAndPresses =>
    rw [endPress_evt, slotAfterRelease, if_neg (by rw [clean_after, scope]; decide), empty]

/-- Settles O43: the event of the release is in the slot that the CONSUME after it takes, or is put into the slot that
the CONSUME before it left empty. -/
theorem postIsConsumedOrLeft : Obligations.PostIsConsumedOrLeft := by
  intro ch ts s empty clean
  have legal : s.block.evt ≠ 3#2 := by rw [empty]; decide
  have slot : (endPress ch ts s).block.evt = eventOf ch := slotAfterRelease_of_clean clean empty
  have consumed := exec_consume (s := endPress ch ts s) (by rw [slot]; exact eventOf_ne_three ch)
  have unchanged : (takeEvent s).block = s.block := consumeSlot_of_empty _ empty
  refine ⟨⟨_, (runInstrs_cons (exec_edgeR legal)).trans (runInstrs_cons consumed), slot, by simp⟩,
    _, _, exec_consume legal, empty, exec_edgeR (by rwa [unchanged]), ?_⟩
  have still_clean : isCleanRelease ch ts (takeEvent s) = true :=
    (isCleanRelease_congr (takeEvent_config s) (by rw [unchanged])).trans clean
  exact slotAfterRelease_of_clean still_clean (by rw [unchanged, empty])

/-! ### The result ports -/

/-- R35: a step that answers a next state is the render loop's action where no turn is given, and the first turn
otherwise. -/
theorem step_cases {s t : State} (h : step s = .next t) :
    (s.turns = [] ∧ loopAction s = .next t) ∨
      ∃ x rest, s.turns = x :: rest ∧ takeTurn x { s with turns := rest } = .next t := by
  cases given : s.turns with
  | nil => exact .inl ⟨rfl, (step_of_no_turns given).symm.trans h⟩
  | cons x rest => exact .inr ⟨x, rest, rfl, (step_of_turn given).symm.trans h⟩

/-- R26: every operation leaves all ports and the Adjust undriven before it drives its own, so what they were before
is gone. -/
theorem exec_ports (i : Instr) (s : State) (p : Ports) (a : Option (BitVec 32)) :
    exec i { s with ports := p, adjust := a } = exec i s := by
  cases i <;> rfl

theorem issue_ports (cmd : Cmd) (ts : Nat) (s : State) (p : Ports) (a : Option (BitVec 32)) :
    issue cmd ts { s with ports := p, adjust := a } = issue cmd ts s := by
  unfold issue
  split
  · exact exec_ports _ s p a
  · rfl

/-- Two states that differ in the ports and the last Adjust at most. -/
def SameUpToPorts (t u : State) : Prop := ∃ p a, u = { t with ports := p, adjust := a }

theorem SameUpToPorts.refl (t : State) : SameUpToPorts t t := ⟨t.ports, t.adjust, rfl⟩

/-- R126: the loop reads the ports of its own operation only. -/
theorem loopAction_ports {s t : State} (p : Ports) (a : Option (BitVec 32)) (h : loopAction s = .next t) :
    ∃ u, loopAction { s with ports := p, adjust := a } = .next u ∧ SameUpToPorts t u := by
  unfold loopAction at h ⊢
  cases phase : s.loop.phase with
  | bootRtc =>
    simp only [phase, bootRtc] at h ⊢
    split_ifs at h ⊢ <;> (cases h; exact ⟨_, rfl, p, a, rfl⟩)
  | bootPower =>
    simp only [phase, bootPower] at h ⊢
    split_ifs at h ⊢ <;> (cases h; exact ⟨_, rfl, p, a, rfl⟩)
  | compare =>
    simp only [phase, comparePattern] at h ⊢
    split_ifs at h ⊢ <;> (cases h; exact ⟨_, rfl, p, a, rfl⟩)
  | bootReset => simp only [phase] at h ⊢; cases h; exact ⟨_, rfl, .refl _⟩
  | consume =>
    simp only [phase, issueInstr, issue_ports] at h ⊢
    exact ⟨t, h, .refl t⟩
  | translate =>
    simp only [phase, issueInstr, issue_ports] at h ⊢
    exact ⟨t, h, .refl t⟩
  | _ => simp only [phase] at h ⊢; cases h; exact ⟨_, rfl, p, a, rfl⟩

theorem takeTurn_ports {x : Turn} {s t : State} (p : Ports) (a : Option (BitVec 32)) (h : takeTurn x s = .next t) :
    ∃ u, takeTurn x { s with ports := p, adjust := a } = .next u ∧ SameUpToPorts t u := by
  cases x with
  | command cmd ts => exact ⟨t, (issue_ports cmd ts s p a).trans h, .refl t⟩
  | edge ch e ts =>
    simp only [takeTurn, edgeNotification] at h ⊢
    split_ifs at h ⊢
    · exact ⟨t, (issue_ports _ _ s p a).trans h, .refl t⟩
    · cases h; exact ⟨_, rfl, p, a, rfl⟩
  | loop => exact loopAction_ports p a h
  | reset => cases h; exact ⟨_, rfl, .refl _⟩
  | powerCycle => cases h; exact ⟨_, rfl, .refl _⟩
  | rtc r => cases h; exact ⟨_, rfl, p, a, rfl⟩

/-- Settles O13: no turn and no action of the loop reads them. -/
theorem portsAreNotReadBack : Obligations.PortsAreNotReadBack := by
  intro s p a t h
  have answer : ∃ u, step { s with ports := p, adjust := a } = .next u ∧ SameUpToPorts t u := by
    obtain ⟨given, acted⟩ | ⟨x, rest, given, taken⟩ := step_cases h
    · rw [step_of_no_turns (s := { s with ports := p, adjust := a }) given]
      exact loopAction_ports p a acted
    · rw [step_of_turn (s := { s with ports := p, adjust := a }) given]
      exact takeTurn_ports p a taken
  obtain ⟨u, same_step, p', a', rfl⟩ := answer
  exact ⟨_, same_step, rfl, rfl, rfl, rfl, rfl, rfl, rfl, rfl⟩

end Sys2Proof.Machine
end

section
/-! PROOFS. What every step keeps (10_state.md R22, R24, 60_exceptions.md R107, 45_host_render_loop.md section 2): one
account of what a step does to the block and one of what it does to the host, and the invariants that follow. -/

namespace Sys2Proof.Machine

/-! ### The actions of the render loop that operate at the block -/

/-- R95 step 1: the loop's CONSUME, and its copies. -/
theorem loopAction_consume_eq_next {s t : State} (phase : s.loop.phase = .consume) :
    loopAction s = .next t ↔ s.block.evt ≠ 3#2 ∧ t = afterConsume (takeEvent s) := by
  rw [loopAction_consume phase, issueInstr_of_wellFormed rfl, andThen_eq_next]
  constructor
  · rintro ⟨u, answer, rfl⟩
    obtain ⟨legal, rfl⟩ := exec_consume_eq_next.mp answer
    exact ⟨legal, rfl⟩
  · rintro ⟨legal, rfl⟩
    exact ⟨_, exec_consume legal, rfl⟩

/-- R95 step 3: the state after the loop's TRANSLATE of its snapshot. -/
def showPattern (s : State) : State :=
  afterTranslate
    (s.accept.drivePattern (wordPattern s.config s.loop.snapshot.hour.val s.loop.snapshot.minute.val))

/-- R95 step 3: the loop's TRANSLATE, of a legal time always, and its copy. -/
theorem loopAction_translate_eq {s : State} (phase : s.loop.phase = .translate) :
    loopAction s = .next (showPattern s) := by
  have hour_fits : s.loop.snapshot.hour.val < 24 := s.loop.snapshot.hour.isLt
  have minute_fits : s.loop.snapshot.minute.val < 60 := s.loop.snapshot.minute.isLt
  have hour : (BitVec.ofNat 5 s.loop.snapshot.hour.val).toNat = s.loop.snapshot.hour.val := by
    rw [BitVec.toNat_ofNat]; omega
  have minute : (BitVec.ofNat 6 s.loop.snapshot.minute.val).toNat = s.loop.snapshot.minute.val := by
    rw [BitVec.toNat_ofNat]; omega
  have answer := exec_translate_of_legal (hour := BitVec.ofNat 5 s.loop.snapshot.hour.val)
    (minute := BitVec.ofNat 6 s.loop.snapshot.minute.val) s (by omega) (by omega)
  rw [loopAction_translate phase, issueInstr_of_wellFormed (translateInstr_wellFormed _), translateInstr, answer,
    hour, minute]
  rfl

/-- R109, D25: from a legal slot the render loop's action completes. -/
theorem loopAction_completes {s : State} (legal : s.block.evt ≠ 3#2) : ∃ t, loopAction s = .next t := by
  cases phase : s.loop.phase with
  | consume => exact ⟨_, (loopAction_consume_eq_next phase).mpr ⟨legal, rfl⟩⟩
  | translate => exact ⟨_, loopAction_translate_eq phase⟩
  | _ => simp only [loopAction, phase]; exact ⟨_, rfl⟩

/-! ### What a step does to the block -/

/-- A word at the command interface is a well-formed instruction performed or a refusal. -/
theorem issue_cases {cmd : Cmd} {ts : Nat} {s t : State} (h : issue cmd ts s = .next t) :
    (∃ i, exec i s = .next t) ∨ ∃ code, t = s.refuse code := by
  cases decoded : decode cmd ts with
  | ok i => exact .inl ⟨i, (issue_of_decode_ok decoded).symm.trans h⟩
  | error code => rw [issue_of_decode_error decoded] at h; cases h; exact .inr ⟨code, rfl⟩

/-- R107: an operation never removes the refusal mark. -/
theorem exec_keeps_mark {i : Instr} {s t : State} (h : exec i s = .next t) (marked : s.refusalMark = true) :
    t.refusalMark = true := by
  cases i with
  | translate hour minute =>
    by_cases legal : hour.toNat < 24 ∧ minute.toNat < 60
    · cases (exec_translate_of_legal s legal.1 legal.2).symm.trans h; exact marked
    · cases (exec_translate_of_out_of_range s (by omega)).symm.trans h; rfl
  | edgeF ch ts => cases (exec_edgeF ch ts s).symm.trans h; exact marked
  | edgeR ch ts => obtain ⟨-, rfl⟩ := exec_edgeR_eq_next.mp h; exact marked
  | consume => obtain ⟨-, rfl⟩ := exec_consume_eq_next.mp h; exact marked
  | status => obtain ⟨-, rfl⟩ := exec_status_eq_next.mp h; exact marked

/-- What a turn can do to the block, its configuration and the refusal mark: S is kept, or reset, or written by one
operation. -/
structure BlockStep (s t : State) : Prop where
  config : t.config = s.config
  mark : s.refusalMark = true → t.refusalMark = true
  block : t.block = s.block ∨ t.block = Block.reset ∨ ∃ i u v, exec i u = .next v ∧ u.config = s.config ∧
    u.block = s.block ∧ v.block = t.block

theorem BlockStep.of_exec {i : Instr} {s t : State} (h : exec i s = .next t) : BlockStep s t :=
  ⟨(exec_leaves_host h).1, exec_keeps_mark h, .inr (.inr ⟨i, s, t, h, rfl, rfl, rfl⟩)⟩

theorem BlockStep.of_issue {cmd : Cmd} {ts : Nat} {s t : State} (h : issue cmd ts s = .next t) : BlockStep s t := by
  obtain ⟨i, performed⟩ | ⟨code, rfl⟩ := issue_cases h
  · exact .of_exec performed
  · exact ⟨rfl, fun _ => rfl, .inl rfl⟩

theorem BlockStep.of_loopAction {s t : State} (h : loopAction s = .next t) : BlockStep s t := by
  cases phase : s.loop.phase with
  | bootRtc =>
    cases (loopAction_bootRtc phase).symm.trans h
    unfold bootRtc
    split_ifs <;> exact ⟨rfl, id, .inl rfl⟩
  | bootPower =>
    cases (loopAction_bootPower phase).symm.trans h
    unfold bootPower
    split_ifs <;> exact ⟨rfl, id, .inl rfl⟩
  | bootReset => cases (loopAction_bootReset phase).symm.trans h; exact ⟨rfl, id, .inr (.inl rfl)⟩
  | bootEdges => cases (loopAction_bootEdges phase).symm.trans h; exact ⟨rfl, id, .inl rfl⟩
  | consume =>
    obtain ⟨legal, rfl⟩ := (loopAction_consume_eq_next phase).mp h
    exact ⟨rfl, id, .inr (.inr ⟨.consume, s, _, exec_consume legal, rfl, rfl, rfl⟩)⟩
  | adjust => cases (loopAction_adjust phase).symm.trans h; exact ⟨rfl, id, .inl rfl⟩
  | read => cases (loopAction_read phase).symm.trans h; exact ⟨rfl, id, .inl rfl⟩
  | translate => cases (loopAction_translate_eq phase).symm.trans h; exact ⟨rfl, id, .inl rfl⟩
  | compare =>
    cases (loopAction_compare phase).symm.trans h
    unfold comparePattern
    split_ifs <;> exact ⟨rfl, id, .inl rfl⟩
  | idle => cases (loopAction_idle phase).symm.trans h; exact ⟨rfl, id, .inl rfl⟩
  | setPixel i => cases (loopAction_setPixel phase).symm.trans h; exact ⟨rfl, id, .inl rfl⟩
  | flush => cases (loopAction_flush phase).symm.trans h; exact ⟨rfl, id, .inl rfl⟩
  | log => cases (loopAction_log phase).symm.trans h; exact ⟨rfl, id, .inl rfl⟩
  | halted => cases (loopAction_halted phase).symm.trans h; exact ⟨rfl, id, .inl rfl⟩

theorem BlockStep.of_takeTurn {x : Turn} {s t : State} (h : takeTurn x s = .next t) : BlockStep s t := by
  cases x with
  | command cmd ts => exact .of_issue h
  | edge ch e ts =>
    simp only [takeTurn, edgeNotification_eq] at h
    split_ifs at h
    · exact .of_exec h
    · cases h; exact ⟨rfl, id, .inl rfl⟩
  | loop => exact .of_loopAction h
  | reset => cases h; exact ⟨rfl, id, .inr (.inl rfl)⟩
  | powerCycle => cases h; exact ⟨rfl, id, .inr (.inl rfl)⟩
  | rtc r => cases h; exact ⟨rfl, id, .inl rfl⟩

/-- R22, R34, R107: whatever turn a step takes. -/
theorem BlockStep.of_step {s t : State} (h : step s = .next t) : BlockStep s t := by
  obtain ⟨-, acted⟩ | ⟨x, rest, -, taken⟩ := step_cases h
  · exact .of_loopAction acted
  · obtain ⟨config, mark, block⟩ := BlockStep.of_takeTurn taken
    exact ⟨config, mark, block⟩

/-! ### The legal states -/

/-- R19: no turn writes the slot value 3. -/
theorem BlockStep.slot_legal {s t : State} (h : BlockStep s t) (legal : s.block.evt ≠ 3#2) : t.block.evt ≠ 3#2 := by
  obtain same | reset | ⟨i, u, v, performed, -, before, after⟩ := h.block
  · rwa [same]
  · rw [reset]; decide
  · rw [← after]
    obtain ⟨-, kept⟩ | ⟨ch, -, -, -, new⟩ | ⟨-, empty, -⟩ := exec_slot_cases performed
    · rwa [kept, before]
    · rw [new]; exact eventOf_ne_three ch
    · rw [empty]; decide

/-- R18, R24: no turn writes a timestamp wider than TS_W. -/
theorem BlockStep.ts_legal {s t : State} (h : BlockStep s t) {ch : Channel}
    (legal : (s.block.chan ch).ts < 2 ^ s.config.tsWidth) : (t.block.chan ch).ts < 2 ^ t.config.tsWidth := by
  rw [h.config]
  obtain same | reset | ⟨i, u, v, performed, config, before, after⟩ := h.block
  · rwa [same]
  · rw [reset, Block.chan_reset]; exact Nat.two_pow_pos _
  · rw [← after]
    rw [← before] at legal
    obtain kept | ⟨ts, -, started⟩ | ⟨ts, -, -, ended⟩ | ⟨-, -, -, cancelled⟩ := exec_chan_cases performed ch
    · rwa [kept]
    · rw [started, config]; exact timestamp_lt s.config ts
    · rwa [ended]
    · rwa [cancelled]

/-- R24: a legal state stays legal. -/
theorem BlockStep.legal {s t : State} (h : BlockStep s t) (legal : Legal s) : Legal t :=
  ⟨h.slot_legal legal.1, h.ts_legal (ch := .ch1) legal.2.1, h.ts_legal (ch := .ch2) legal.2.2⟩

/-- R109: from a legal slot every turn completes. -/
theorem takeTurn_completes (x : Turn) {s : State} (legal : s.block.evt ≠ 3#2) : ∃ t, takeTurn x s = .next t := by
  cases x with
  | command cmd ts =>
    obtain ⟨t, answer, -⟩ := errTellsAcceptance s cmd ts legal
    exact ⟨t, answer⟩
  | edge ch e ts =>
    simp only [takeTurn, edgeNotification_eq]
    split_ifs
    · obtain ⟨t, answer, -⟩ := exec_edge e ch ts legal
      exact ⟨t, answer⟩
    · exact ⟨s, rfl⟩
  | loop => exact loopAction_completes legal
  | reset => exact ⟨_, rfl⟩
  | powerCycle => exact ⟨_, rfl⟩
  | rtc r => exact ⟨_, rfl⟩

/-- R109: from a legal slot every step completes. -/
theorem step_completes {s : State} (legal : s.block.evt ≠ 3#2) : ∃ t, step s = .next t := by
  cases given : s.turns with
  | nil => rw [step_of_no_turns given]; exact loopAction_completes legal
  | cons x rest => rw [step_of_turn given]; exact takeTurn_completes x legal

/-- What every step keeps, every run keeps. -/
theorem runSteps_invariant {P : State → Prop} (kept : ∀ s t, P s → step s = .next t → P t) {k : Nat} {s t : State}
    (start : P s) (h : runSteps k s = .next t) : P t := by
  induction k generalizing s with
  | zero => cases h; exact start
  | succ k ih =>
    cases first : step s with
    | next u => rw [runSteps_succ k first] at h; exact ih (kept s u start first) h
    | fault r => simp only [runSteps, first] at h; cases h
    | refused r => simp only [runSteps, first] at h; cases h

/-! ### What a turn does to the host -/

/-- A turn of another agent than the render loop, but a power cycle, leaves the loop, the display and the log; only a
turn of the RTC changes its data. -/
theorem takeTurn_leaves_loop {x : Turn} {s t : State} (not_loop : x ≠ .loop) (powered : x ≠ .powerCycle)
    (h : takeTurn x s = .next t) :
    t.loop = s.loop ∧ t.display = s.display ∧ t.log = s.log ∧ t.turns = s.turns := by
  cases x with
  | command cmd ts =>
    obtain ⟨i, performed⟩ | ⟨code, rfl⟩ := issue_cases h
    · obtain ⟨-, turns, loop, -, display, log⟩ := exec_leaves_host performed
      exact ⟨loop, display, log, turns⟩
    · exact ⟨rfl, rfl, rfl, rfl⟩
  | edge ch e ts =>
    simp only [takeTurn, edgeNotification_eq] at h
    split_ifs at h
    · obtain ⟨-, turns, loop, -, display, log⟩ := exec_leaves_host h
      exact ⟨loop, display, log, turns⟩
    · cases h; exact ⟨rfl, rfl, rfl, rfl⟩
  | loop => exact absurd rfl not_loop
  | reset => cases h; exact ⟨rfl, rfl, rfl, rfl⟩
  | powerCycle => exact absurd rfl powered
  | rtc r => cases h; exact ⟨rfl, rfl, rfl, rfl⟩

/-! ### The display -/

/-- A push is under way: some pixel of it is to be set, or the buffer to be shown. -/
def Phase.pushing : Phase → Bool
  | .setPixel _ => true
  | .flush => true
  | .bootRtc => false
  | .bootPower => false
  | .bootReset => false
  | .bootEdges => false
  | .consume => false
  | .adjust => false
  | .read => false
  | .translate => false
  | .compare => false
  | .idle => false
  | .log => false
  | .halted => false

theorem displayFollows_of_not_pushing {s : State} (outside : s.loop.phase.pushing = false) :
    DisplayFollows s ↔ s.loop.prevPattern = 0#32 ∨ s.display.shown = expand s.config s.loop.prevPattern := by
  cases phase : s.loop.phase with
  | setPixel i => rw [phase] at outside; cases outside
  | flush => rw [phase] at outside; cases outside
  | _ => simp only [DisplayFollows, phase]

theorem displayFollows_of_setPixel {s : State} {i : Fin 30} (phase : s.loop.phase = .setPixel i) :
    DisplayFollows s ↔ s.loop.pattern = s.loop.prevPattern ∧
      ∀ j : Fin 30, j.val < i.val → s.display.buffer[j] = pixelOf s.config s.loop.prevPattern j := by
  simp only [DisplayFollows, phase]

theorem displayFollows_of_flush {s : State} (phase : s.loop.phase = .flush) :
    DisplayFollows s ↔ s.display.buffer = expand s.config s.loop.prevPattern := by
  simp only [DisplayFollows, phase]

theorem displayFollows_congr {s t : State} (loop : t.loop = s.loop) (display : t.display = s.display)
    (config : t.config = s.config) : DisplayFollows t ↔ DisplayFollows s := by
  simp only [DisplayFollows, loop, display, config]

/-- Outside a push, an action that writes neither `H.prev_pattern` nor the strip keeps what the strip shows. -/
theorem displayFollows_outside {s t : State} (before : s.loop.phase.pushing = false)
    (after : t.loop.phase.pushing = false) (follows : DisplayFollows s)
    (prev : t.loop.prevPattern = s.loop.prevPattern) (shown : t.display.shown = s.display.shown) (config : t.config = s.config) : DisplayFollows t := by
  rw [displayFollows_of_not_pushing before] at follows
  rwa [displayFollows_of_not_pushing after, prev, shown, config]

/-- R98: EXPAND, pixel by pixel. -/
theorem expand_getElem (c : Config) (p : Pattern) (j : Fin 30) : (expand c p)[j] = pixelOf c p j := by
  simp [expand]

theorem setPixel_getElem (d : Display) (i j : Fin 30) (color : Color) :
    (d.setPixel i color).buffer[j] = if i = j then color else d.buffer[j] := by
  simp [Display.setPixel, Vector.getElem_set, Fin.ext_iff]

/-- A buffer whose thirty pixels are those of a pattern is its EXPAND. -/
theorem buffer_eq_expand {c : Config} {p : Pattern} {buffer : Vector Color 30}
    (pixels : ∀ j : Fin 30, buffer[j] = pixelOf c p j) : buffer = expand c p := by
  ext j hj
  exact (pixels ⟨j, hj⟩).trans (expand_getElem c p ⟨j, hj⟩).symm

/-- R99: one more pixel of the push. -/
theorem displayFollows_pushPixel {s : State} {i : Fin 30} (phase : s.loop.phase = .setPixel i)
    (follows : DisplayFollows s) : DisplayFollows (pushPixel i s) := by
  obtain ⟨pattern, below⟩ := (displayFollows_of_setPixel phase).mp follows
  have pixels : ∀ j : Fin 30, j.val < i.val + 1 →
      (pushPixel i s).display.buffer[j] = pixelOf s.config s.loop.prevPattern j := by
    intro j hj
    rw [pushPixel, setPixel_getElem, pattern]
    split_ifs with here
    · rw [here]
    · exact below j (by have := Fin.val_ne_of_ne here; omega)
  by_cases more : i.val + 1 < 30
  · have next : (pushPixel i s).loop.phase = .setPixel ⟨i.val + 1, more⟩ := dif_pos more
    exact (displayFollows_of_setPixel next).mpr ⟨pattern, pixels⟩
  · have next : (pushPixel i s).loop.phase = .flush := dif_neg more
    exact (displayFollows_of_flush next).mpr (buffer_eq_expand fun j => pixels j (by omega))

/-- R95 to R99: the render loop's action keeps the display following. -/
theorem displayFollows_of_loopAction {s t : State} (follows : DisplayFollows s) (h : loopAction s = .next t) :
    DisplayFollows t := by
  cases phase : s.loop.phase with
  | bootRtc =>
    cases (loopAction_bootRtc phase).symm.trans h
    unfold bootRtc
    split_ifs <;> exact displayFollows_outside (by rw [phase]; rfl) rfl follows rfl rfl rfl
  | bootPower =>
    cases (loopAction_bootPower phase).symm.trans h
    unfold bootPower
    split_ifs <;> exact displayFollows_outside (by rw [phase]; rfl) rfl follows rfl rfl rfl
  | bootReset => cases (loopAction_bootReset phase).symm.trans h; exact .inl rfl
  | bootEdges =>
    cases (loopAction_bootEdges phase).symm.trans h
    exact displayFollows_outside (by rw [phase]; rfl) rfl follows rfl rfl rfl
  | consume =>
    obtain ⟨-, rfl⟩ := (loopAction_consume_eq_next phase).mp h
    refine displayFollows_outside (by rw [phase]; rfl) ?_ follows rfl rfl rfl
    unfold afterConsume
    split_ifs <;> rfl
  | adjust =>
    cases (loopAction_adjust phase).symm.trans h
    exact displayFollows_outside (by rw [phase]; rfl) rfl follows rfl rfl rfl
  | read =>
    cases (loopAction_read phase).symm.trans h
    exact displayFollows_outside (by rw [phase]; rfl) rfl follows rfl rfl rfl
  | translate =>
    cases (loopAction_translate_eq phase).symm.trans h
    exact displayFollows_outside (by rw [phase]; rfl) rfl follows rfl rfl rfl
  | compare =>
    cases (loopAction_compare phase).symm.trans h
    unfold comparePattern
    split_ifs
    · exact displayFollows_outside (by rw [phase]; rfl) rfl follows rfl rfl rfl
    · exact ⟨rfl, fun j hj => absurd hj (Nat.not_lt_zero _)⟩
  | idle =>
    cases (loopAction_idle phase).symm.trans h
    exact displayFollows_outside (by rw [phase]; rfl) rfl follows rfl rfl rfl
  | setPixel i => cases (loopAction_setPixel phase).symm.trans h; exact displayFollows_pushPixel phase follows
  | flush =>
    cases (loopAction_flush phase).symm.trans h
    exact .inr ((displayFollows_of_flush phase).mp follows)
  | log =>
    cases (loopAction_log phase).symm.trans h
    exact displayFollows_outside (by rw [phase]; rfl) rfl follows rfl rfl rfl
  | halted => cases (loopAction_halted phase).symm.trans h; exact follows

/-! ### The statements -/

/-- Settles O47: the reset values, under any configuration the hardware was built with. -/
theorem resetMeetsInvariants : Obligations.ResetMeetsInvariants :=
  ⟨⟨by decide, Nat.two_pow_pos _, Nat.two_pow_pos _⟩, .inl rfl⟩

/-- Settles O48: S is kept, reset, or written by one operation, and each leaves it legal. -/
theorem stepKeepsLegal : Obligations.StepKeepsLegal := fun _ _ legal h => (BlockStep.of_step h).legal legal

/-- Settles O49, by induction on the number of steps: each completes and keeps the state legal. -/
theorem legalRunNeverStops : Obligations.LegalRunNeverStops := by
  intro k
  induction k with
  | zero => exact fun s legal => ⟨s, rfl, legal⟩
  | succ k ih =>
    intro s legal
    obtain ⟨u, first⟩ := step_completes legal.1
    obtain ⟨t, rest, legal_end⟩ := ih u (stepKeepsLegal s u legal first)
    exact ⟨t, (runSteps_succ k first).trans rest, legal_end⟩

/-- Settles O50: both are kept by every step. -/
theorem configurationAndMarkAreKept : Obligations.ConfigurationAndMarkAreKept := by
  intro k s t h
  refine runSteps_invariant (P := fun u => u.config = s.config ∧ (s.refusalMark = true → u.refusalMark = true))
    (fun u v before h => ?_) ⟨rfl, id⟩ h
  have change := BlockStep.of_step h
  exact ⟨change.config.trans before.1, fun marked => change.mark (before.2 marked)⟩

/-- Settles O59: a turn of the loop is one of its actions, a power cycle empties `H.prev_pattern`, and no other turn
touches what the statement is about. -/
theorem stepKeepsDisplayFollows : Obligations.StepKeepsDisplayFollows := by
  intro s t follows h
  obtain ⟨-, acted⟩ | ⟨x, rest, -, taken⟩ := step_cases h
  · exact displayFollows_of_loopAction follows acted
  · by_cases is_loop : x = .loop
    · subst is_loop
      exact displayFollows_of_loopAction (s := { s with turns := rest }) follows taken
    by_cases is_powerCycle : x = .powerCycle
    · subst is_powerCycle
      cases taken
      exact .inl rfl
    obtain ⟨loop, display, -⟩ := takeTurn_leaves_loop is_loop is_powerCycle taken
    exact (displayFollows_congr loop display (BlockStep.of_takeTurn taken).config).mpr follows

end Sys2Proof.Machine
end

section
/-! PROOFS. The host's boot and collaborators (70_reset_and_hazards.md R122, 45_host_render_loop.md R96, R98, R100,
R101): what each action answers with no turn given, and the statements on them. -/

namespace Sys2Proof.Machine

/-! ### Runs of the render loop alone -/

/-- With no turn given, a run goes on from the render loop's action. -/
theorem runSteps_loopAction {s t : State} (k : Nat) (acted : loopAction s = .next t) (given : s.turns = []) :
    runSteps (k + 1) s = runSteps k t := runSteps_succ k ((step_of_no_turns given).trans acted)

/-- R122: a halted host acts no more. -/
theorem runSteps_halted {s : State} (given : s.turns = []) (halted : s.loop.phase = .halted) (k : Nat) :
    runSteps k s = .next s := by
  induction k with
  | zero => rfl
  | succ k ih => rw [runSteps_loopAction k (loopAction_halted halted) given, ih]

/-! ### Boot -/

theorem bootRtc_of_reachable {s : State} (reachable : s.rtc.reachable = true) : bootRtc s = s.toPhase .bootPower :=
  if_pos reachable

theorem bootRtc_of_unreachable {s : State} (unreachable : s.rtc.reachable = false) : bootRtc s = s.toPhase .halted :=
  if_neg (by rw [unreachable]; decide)

/-- R122 step 2: the seed, and what it leaves. -/
theorem bootPower_fields (s : State) :
    (bootPower s).loop.phase = .bootReset ∧ (bootPower s).turns = s.turns ∧
      (bootPower s).rtc.time = (if s.rtc.lostPower = true then s.config.defaultTime else s.rtc.time) ∧
      (bootPower s).display = s.display ∧ (bootPower s).log = s.log := by
  unfold bootPower
  split_ifs <;> exact ⟨rfl, rfl, rfl, rfl, rfl⟩

/-- Settles O51: the four actions one after the other, or the first and then none. -/
theorem bootReachesRenderLoop : Obligations.BootReachesRenderLoop := by
  intro s given phase
  refine ⟨fun reachable => ?boots, fun unreachable k => ?halts⟩
  case boots =>
    obtain ⟨phase2, turns2, time2, display2, log2⟩ := bootPower_fields (s.toPhase .bootPower)
    have first := loopAction_bootRtc phase
    rw [bootRtc_of_reachable reachable] at first
    refine ⟨bootEdges (bootReset (bootPower (s.toPhase .bootPower))), ?run, rfl, rfl, rfl, rfl, time2, display2, log2⟩
    have second := loopAction_bootPower (s := s.toPhase .bootPower) rfl
    have given2 := turns2.trans given
    have third := loopAction_bootReset phase2
    have fourth := loopAction_bootEdges (s := bootReset (bootPower (s.toPhase .bootPower))) rfl
    rw [runSteps_loopAction 3 first given, runSteps_loopAction 2 second given, runSteps_loopAction 1 third given2,
      runSteps_loopAction 0 fourth given2, runSteps_zero]
  case halts =>
    have first := loopAction_bootRtc phase
    rw [bootRtc_of_unreachable unreachable] at first
    refine ⟨s.toPhase .halted, ?stays, rfl, rfl, rfl, rfl, rfl⟩
    rw [runSteps_loopAction k first given, runSteps_halted (s := s.toPhase .halted) given rfl]

/-! ### The clock -/

/-- Settles O53: the minute of the day is below 1440, so hour and minute hold it whole. -/
theorem referenceAdjustIsModular : Obligations.ReferenceAdjustIsModular := by
  intro d t
  refine ⟨?_, rfl⟩
  simp only [minuteOfDay, referenceAdjust, Fin.val_ofNat]
  omega

/-- R96: the delta of the edit command of a channel's event. -/
def deltaOf (ch : Channel) : BitVec 32 := (adjOf (eventOf ch)).signExtend 32

/-- R101: the reference RTC's answer to one adjust call. -/
theorem rtcAdjust_of_reference {c : Config} (n : Nat) (d : BitVec 32) (time : TimeOfDay)
    (reference : c.rtcArithmetic = .reference) :
    (minuteOfDay (rtcAdjust c n d time) : Int) = ((minuteOfDay time : Int) + d.toInt) % 1440 ∧
      (rtcAdjust c n d time).second = time.second := by
  have answer : rtcAdjust c n d time = referenceAdjust d.toInt time := by simp only [rtcAdjust, reference]
  rw [answer]
  exact referenceAdjustIsModular d.toInt time

/-- R95 step 1, R96: the state after the loop has consumed an event and adjusted the clock. -/
def applyEvent (s : State) : State := applyAdjust (afterConsume (takeEvent s))

@[simp] theorem applyEvent_config (s : State) : (applyEvent s).config = s.config := rfl

@[simp] theorem applyEvent_turns (s : State) : (applyEvent s).turns = s.turns := rfl

@[simp] theorem applyEvent_phase (s : State) : (applyEvent s).loop.phase = .read := rfl

@[simp] theorem applyEvent_evt (s : State) : (applyEvent s).block.evt = 0#2 := consumeSlot_evt _ _

theorem applyEvent_time {s : State} {ch : Channel} (event : s.block.evt = eventOf ch) :
    (applyEvent s).rtc.time = rtcAdjust s.config (s.freeCount + 1) (deltaOf ch) s.rtc.time := by
  rw [deltaOf, ← event]
  rfl

theorem afterConsume_phase (t : State) :
    (afterConsume t).loop.phase = if t.ports.evtOut = 0#2 then .read else .adjust := rfl

/-- R95 step 1, R96: two actions take an event to the adjusted clock. -/
theorem runSteps_applyEvent {s : State} {ch : Channel} (given : s.turns = []) (phase : s.loop.phase = .consume)
    (event : s.block.evt = eventOf ch) : runSteps 2 s = .next (applyEvent s) := by
  have legal : s.block.evt ≠ 3#2 := event ▸ eventOf_ne_three ch
  have first := (loopAction_consume_eq_next phase).mpr ⟨legal, rfl⟩
  have adjusts : (afterConsume (takeEvent s)).loop.phase = .adjust := by
    rw [afterConsume_phase, takeEvent_evtOut, event, if_neg (eventOf_ne_zero ch)]
  rw [runSteps_loopAction 1 first given, runSteps_loopAction 0 (loopAction_adjust adjusts) given]
  rfl

/-- Settles O52: the two actions of `runSteps_applyEvent`, with the delta of each channel worked out. -/
theorem eventAdjustsClockOnce : Obligations.EventAdjustsClockOnce := by
  intro s ch given phase event
  have time := applyEvent_time event
  refine ⟨_, runSteps_applyEvent given phase event, rfl, applyEvent_evt s, ?call, fun reference => ?clock⟩
  case call => cases ch <;> exact time
  case clock =>
    have moved := rtcAdjust_of_reference (s.freeCount + 1) (deltaOf ch) s.rtc.time reference
    rw [← time] at moved
    cases ch <;> exact moved

/-! ### EXPAND -/

/-- D29: the colour of a pixel tells its bit. -/
theorem pixelOf_eq_iff {c : Config} {p q : Pattern} {i : Fin 30} :
    pixelOf c p i = pixelOf c q i ↔ p.getLsbD i.val = q.getLsbD i.val := by
  have different := c.colors_ne
  cases hp : p.getLsbD i.val <;> cases hq : q.getLsbD i.val <;> simp [pixelOf, hp, hq, different, different.symm]

theorem shownBits_getLsbD (i : Nat) : (0x3FFFFFFF#32).getLsbD i = decide (i < 30) := by
  have mask : 0x3FFFFFFF#32 = BitVec.setWidth 32 (BitVec.allOnes 30) := by decide
  rw [mask, BitVec.getLsbD_setWidth, BitVec.getLsbD_allOnes]
  by_cases below : i < 30
  · simp [below, Nat.lt_trans below]
  · simp [below]

/-- Settles O54: a pixel is a bit below 30, and each colour stands for one value of it. -/
theorem expandShowsThirtyBits : Obligations.ExpandShowsThirtyBits := by
  refine ⟨fun c p i => expand_getElem c p i, fun c p q => ⟨fun same => ?bits, fun same => ?pixels⟩⟩
  case bits =>
    refine BitVec.eq_of_getLsbD_eq fun i _ => ?_
    rw [BitVec.getLsbD_and, BitVec.getLsbD_and, shownBits_getLsbD]
    by_cases shown : i < 30
    · have pixel : pixelOf c p ⟨i, shown⟩ = pixelOf c q ⟨i, shown⟩ := by
        rw [← expand_getElem, ← expand_getElem, same]
      rw [pixelOf_eq_iff.mp pixel]
    · simp [shown]
  case pixels =>
    refine buffer_eq_expand fun i => ?_
    rw [expand_getElem, pixelOf_eq_iff]
    have bit := congrArg (fun v => v.getLsbD i.val) same
    simpa [shownBits_getLsbD, i.isLt] using bit

end Sys2Proof.Machine
end

section
/-! PROOFS. The render loop's iteration (45_host_render_loop.md section 2): from the read of the time to the
comparison, the push, and the statements on one iteration or two (R95-R100, R104, R105). -/

namespace Sys2Proof.Machine

/-! ### The loop's CONSUME -/

@[simp] theorem takeEvent_turns (s : State) : (takeEvent s).turns = s.turns := rfl
@[simp] theorem takeEvent_rtc (s : State) : (takeEvent s).rtc = s.rtc := rfl
@[simp] theorem takeEvent_display (s : State) : (takeEvent s).display = s.display := rfl
@[simp] theorem takeEvent_log (s : State) : (takeEvent s).log = s.log := rfl
@[simp] theorem takeEvent_loop (s : State) : (takeEvent s).loop = s.loop := rfl

@[simp] theorem afterConsume_config (t : State) : (afterConsume t).config = t.config := rfl
@[simp] theorem afterConsume_block (t : State) : (afterConsume t).block = t.block := rfl
@[simp] theorem afterConsume_turns (t : State) : (afterConsume t).turns = t.turns := rfl
@[simp] theorem afterConsume_rtc (t : State) : (afterConsume t).rtc = t.rtc := rfl
@[simp] theorem afterConsume_display (t : State) : (afterConsume t).display = t.display := rfl
@[simp] theorem afterConsume_log (t : State) : (afterConsume t).log = t.log := rfl
@[simp] theorem afterConsume_prevPattern (t : State) :
    (afterConsume t).loop.prevPattern = t.loop.prevPattern := rfl

/-! ### From the read of the time to the comparison -/

/-- R95 steps 2 and 3: the state in which the loop has the pattern of the time it read. -/
def readAndTranslate (s : State) : State := showPattern (readRtc s)

theorem runSteps_readAndTranslate {s : State} (given : s.turns = []) (phase : s.loop.phase = .read) :
    runSteps 2 s = .next (readAndTranslate s) := by
  rw [runSteps_loopAction 1 (loopAction_read phase) given,
    runSteps_loopAction 0 (loopAction_translate_eq (s := readRtc s) rfl) given]
  rfl

@[simp] theorem readAndTranslate_phase (s : State) : (readAndTranslate s).loop.phase = .compare := rfl
@[simp] theorem readAndTranslate_pattern (s : State) : (readAndTranslate s).loop.pattern = patternNow s := rfl
@[simp] theorem readAndTranslate_prevPattern (s : State) :
    (readAndTranslate s).loop.prevPattern = s.loop.prevPattern := rfl
@[simp] theorem readAndTranslate_rtc (s : State) : (readAndTranslate s).rtc = s.rtc := rfl
@[simp] theorem readAndTranslate_config (s : State) : (readAndTranslate s).config = s.config := rfl
@[simp] theorem readAndTranslate_block (s : State) : (readAndTranslate s).block = s.block := rfl
@[simp] theorem readAndTranslate_display (s : State) : (readAndTranslate s).display = s.display := rfl
@[simp] theorem readAndTranslate_log (s : State) : (readAndTranslate s).log = s.log := rfl
@[simp] theorem readAndTranslate_turns (s : State) : (readAndTranslate s).turns = s.turns := rfl

/-- The loop's CONSUME does not change the time's pattern. -/
@[simp] theorem patternNow_afterConsume (s : State) : patternNow (afterConsume (takeEvent s)) = patternNow s := rfl

theorem patternNow_ne_zero (s : State) : patternNow s ≠ 0#32 :=
  wordPattern_ne_zero s.config s.rtc.time.hour.val s.rtc.time.minute.isLt

/-- R97: an unchanged pattern is not rendered again. -/
theorem comparePattern_of_eq {s : State} (same : s.loop.pattern = s.loop.prevPattern) :
    comparePattern s = s.toPhase .idle := if_pos same

/-- R95 step 5: the state at the first pixel of a push. -/
def startPush (s : State) : State :=
  { s with loop := { s.loop with phase := .setPixel 0, prevPattern := s.loop.pattern } }

theorem comparePattern_of_ne {s : State} (changed : s.loop.pattern ≠ s.loop.prevPattern) :
    comparePattern s = startPush s := if_neg changed

/-- R95 step 4: two actions take an unchanged pattern to the next iteration. -/
theorem runSteps_idle {s : State} (given : s.turns = []) (phase : s.loop.phase = .compare)
    (same : s.loop.pattern = s.loop.prevPattern) : runSteps 2 s = .next (s.toPhase .consume) := by
  have compared := loopAction_compare phase
  rw [comparePattern_of_eq same] at compared
  rw [runSteps_loopAction 1 compared given, runSteps_loopAction 0 (loopAction_idle (s := s.toPhase .idle) rfl) given]
  rfl

/-! ### The push -/

/-- What the actions of a push leave of the machine. -/
structure PushFrame (s t : State) : Prop where
  config : t.config = s.config
  block : t.block = s.block
  rtc : t.rtc = s.rtc
  log : t.log = s.log
  turns : t.turns = s.turns
  prevPattern : t.loop.prevPattern = s.loop.prevPattern
  snapshot : t.loop.snapshot = s.loop.snapshot

theorem PushFrame.of_pushPixel (i : Fin 30) (s : State) : PushFrame s (pushPixel i s) :=
  ⟨rfl, rfl, rfl, rfl, rfl, rfl, rfl⟩

theorem PushFrame.trans {s t u : State} (h : PushFrame s t) (g : PushFrame t u) : PushFrame s u :=
  ⟨g.config.trans h.config, g.block.trans h.block, g.rtc.trans h.rtc, g.log.trans h.log, g.turns.trans h.turns,
    g.prevPattern.trans h.prevPattern, g.snapshot.trans h.snapshot⟩

/-- R99: the pixels that are left, in index order, take the push to its `show`. -/
theorem runSteps_pixels (left : Nat) {s : State} {i : Fin 30} (count : i.val + (left + 1) = 30)
    (given : s.turns = []) (phase : s.loop.phase = .setPixel i) :
    ∃ t, runSteps (left + 1) s = .next t ∧ t.loop.phase = .flush ∧ PushFrame s t := by
  induction left generalizing s i with
  | zero =>
    refine ⟨pushPixel i s, runSteps_loopAction 0 (loopAction_setPixel phase) given, ?_, .of_pushPixel i s⟩
    exact dif_neg (by omega)
  | succ left ih =>
    have more : i.val + 1 < 30 := by omega
    have next : (pushPixel i s).loop.phase = .setPixel ⟨i.val + 1, more⟩ := dif_pos more
    have count' : (⟨i.val + 1, more⟩ : Fin 30).val + (left + 1) = 30 := by simp only; omega
    obtain ⟨t, rest, flush, frame⟩ := ih (s := pushPixel i s) count' given next
    exact ⟨t, (runSteps_loopAction _ (loopAction_setPixel phase) given).trans rest, flush,
      (PushFrame.of_pushPixel i s).trans frame⟩

/-- R95 step 5, R99, R100: 33 actions take a changed pattern to the strip, to the log and to the next iteration. -/
theorem runSteps_push {s : State} (given : s.turns = []) (phase : s.loop.phase = .compare)
    (changed : s.loop.pattern ≠ s.loop.prevPattern) :
    ∃ t, runSteps 33 s = .next t ∧ t.loop.phase = .consume ∧ t.loop.prevPattern = s.loop.pattern ∧
      t.display.shown = expand s.config s.loop.pattern ∧ t.log = s.loop.snapshot :: s.log ∧ t.block = s.block ∧
      t.rtc = s.rtc ∧ t.config = s.config ∧ t.turns = [] := by
  have compared := loopAction_compare phase
  rw [comparePattern_of_ne changed] at compared
  obtain ⟨u, pixels, flush, frame⟩ := runSteps_pixels 29 (s := startPush s) (i := 0) rfl given rfl
  have none_set : DisplayFollows (startPush s) := ⟨rfl, fun j hj => absurd hj (Nat.not_lt_zero _)⟩
  have follows : DisplayFollows u := runSteps_invariant stepKeepsDisplayFollows none_set pixels
  have buffer := (displayFollows_of_flush flush).mp follows
  rw [frame.config, frame.prevPattern] at buffer
  have given' : u.turns = [] := frame.turns.trans given
  refine ⟨writeLog (flushDisplay u), ?run, rfl, frame.prevPattern, buffer, ?log, frame.block, frame.rtc, frame.config,
    given'⟩
  case run =>
    rw [runSteps_loopAction 32 compared given, runSteps_add 30 2 pixels,
      runSteps_loopAction 1 (loopAction_flush flush) given',
      runSteps_loopAction 0 (loopAction_log (s := flushDisplay u) rfl) given']
    rfl
  case log => exact congrArg₂ List.cons frame.snapshot frame.log

/-! ### The diagnostic line -/

theorem digitChar_of_lt_ten {n : Nat} (h : n < 10) : Nat.digitChar n = Char.ofNat (48 + n) := by
  interval_cases n <;> rfl

/-- R100: the decimal digits of a number below 100. -/
theorem toDigits_eq_twoDigits {n : Nat} (h : n < 100) : Nat.toDigits 10 n = twoDigits n := by
  unfold twoDigits
  split_ifs with one
  · rw [Nat.toDigits_of_lt_base one, digitChar_of_lt_ten one]
  · have tens : n / 10 < 10 := by omega
    have units : n % 10 < 10 := by omega
    rw [Nat.toDigits_of_base_le (by decide) (by omega), Nat.toDigits_of_lt_base tens, digitChar_of_lt_ten tens,
      digitChar_of_lt_ten units]
    rfl

theorem toList_toString {n : Nat} (h : n < 100) : (toString n).toList = twoDigits n := by
  rw [Nat.toString_eq_ofList_toDigits, toDigits_eq_twoDigits h, String.toList_ofList]

/-- R100: the text of the line. -/
theorem diagnosticLine_toList (time : TimeOfDay) : (diagnosticLine time).toList =
    twoDigits time.hour.val ++ [':'] ++ twoDigits time.minute.val ++ [':'] ++ twoDigits time.second.val := by
  have hour := time.hour.isLt
  have minute := time.minute.isLt
  have second := time.second.isLt
  simp only [diagnosticLine, String.toList_append]
  rw [toList_toString (by omega), toList_toString (by omega), toList_toString (by omega)]
  rfl

/-! ### The statements -/

/-- Settles O55: the push of `runSteps_push`, and the digits of three numbers below 60. -/
theorem changedPatternIsPushed : Obligations.ChangedPatternIsPushed := by
  refine ⟨fun s given phase changed => ?_, diagnosticLine_toList⟩
  obtain ⟨t, run, next, prev, shown, log, block, rtc, -⟩ := runSteps_push given phase changed
  exact ⟨t, run, next, prev, shown, log, by rw [log, List.map_cons], block, rtc⟩

/-- R95 step 1: from a legal slot one action or two take the loop to the read of the time, with the slot empty. -/
theorem runSteps_to_read {s : State} (given : s.turns = []) (phase : s.loop.phase = .consume)
    (legal : s.block.evt ≠ 3#2) :
    ∃ k t, k ≤ 2 ∧ runSteps k s = .next t ∧ t.loop.phase = .read ∧ t.turns = [] ∧
      t.loop.prevPattern = s.loop.prevPattern := by
  have first := (loopAction_consume_eq_next phase).mpr ⟨legal, rfl⟩
  by_cases empty : s.block.evt = 0#2
  · exact ⟨1, _, by decide, runSteps_loopAction 0 first given, if_pos empty, given, rfl⟩
  · have adjusts : (afterConsume (takeEvent s)).loop.phase = .adjust := if_neg empty
    refine ⟨2, applyEvent s, le_rfl, ?_, rfl, given, rfl⟩
    rw [runSteps_loopAction 1 first given, runSteps_loopAction 0 (loopAction_adjust adjusts) given]
    rfl

/-- Settles O57: the pattern of the time is no sentinel. -/
theorem firstIterationPushes : Obligations.FirstIterationPushes := by
  intro s given phase sentinel legal
  obtain ⟨k, t, short, run, read, given', prev⟩ := runSteps_to_read given phase legal
  have changed : (readAndTranslate t).loop.pattern ≠ (readAndTranslate t).loop.prevPattern := by
    rw [readAndTranslate_pattern, readAndTranslate_prevPattern, prev, sentinel]
    exact patternNow_ne_zero t
  have compared := loopAction_compare (readAndTranslate_phase t)
  rw [comparePattern_of_ne changed] at compared
  refine ⟨k + (2 + 1), startPush (readAndTranslate t), by omega, ?run, rfl, rfl, patternNow_ne_zero t⟩
  rw [runSteps_add _ _ run, runSteps_add _ _ (runSteps_readAndTranslate given' read),
    runSteps_loopAction 0 compared given']
  rfl

/-- R95: three actions take an iteration with no event to the comparison. -/
theorem runSteps_quiet {s : State} (given : s.turns = []) (phase : s.loop.phase = .consume)
    (empty : s.block.evt = 0#2) :
    runSteps 3 s = .next (readAndTranslate (afterConsume (takeEvent s))) := by
  have first := (loopAction_consume_eq_next phase).mpr ⟨by rw [empty]; decide, rfl⟩
  rw [runSteps_loopAction 2 first given]
  exact runSteps_readAndTranslate given (if_pos empty)

/-- R97: an iteration with no event and an unchanged pattern completes in five actions and pushes nothing. -/
theorem runSteps_quiet_unchanged {s : State} (given : s.turns = []) (phase : s.loop.phase = .consume)
    (empty : s.block.evt = 0#2) (same : patternNow s = s.loop.prevPattern) :
    ∃ t, runSteps 5 s = .next t ∧ t.loop.phase = .consume ∧ t.turns = [] ∧ t.block.evt = 0#2 ∧ t.log = s.log ∧
      t.display = s.display ∧ t.loop.prevPattern = s.loop.prevPattern ∧ t.rtc = s.rtc ∧ t.config = s.config := by
  refine ⟨(readAndTranslate (afterConsume (takeEvent s))).toPhase .consume, ?run, ?frame⟩
  case run =>
    rw [runSteps_add 3 2 (runSteps_quiet given phase empty)]
    exact runSteps_idle (by simp [given]) (by simp) (by simp [same])
  case frame => simp [given]

/-- R95: an iteration with no event and a changed pattern completes in 36 actions and pushes once. -/
theorem runSteps_quiet_changed {s : State} (given : s.turns = []) (phase : s.loop.phase = .consume)
    (empty : s.block.evt = 0#2) (changed : patternNow s ≠ s.loop.prevPattern) :
    ∃ t, runSteps 36 s = .next t ∧ t.loop.phase = .consume ∧ t.turns = [] ∧ t.block.evt = 0#2 ∧
      t.log.length = s.log.length + 1 ∧ t.loop.prevPattern = patternNow s ∧ t.rtc = s.rtc ∧ t.config = s.config := by
  obtain ⟨t, push, next, prev, -, log, block, rtc, config, turns⟩ :=
    runSteps_push (s := readAndTranslate (afterConsume (takeEvent s))) (by simp [given]) (by simp)
      (by simpa using changed)
  refine ⟨t, ?run, next, turns, ?frame⟩
  case run => rw [runSteps_add 3 33 (runSteps_quiet given phase empty), push]
  case frame => simp [block, log, prev, rtc, config]

/-- Patterns of the same hour and minute. -/
theorem patternNow_congr {s t : State} (config : t.config = s.config) (hour : t.rtc.time.hour = s.rtc.time.hour)
    (minute : t.rtc.time.minute = s.rtc.time.minute) : patternNow t = patternNow s := by
  rw [patternNow, patternNow, config, hour, minute]

/-- R105, the iterations into which no turn falls: the first leaves `H.prev_pattern` at the time's pattern, so that
the second is one of `runSteps_quiet_unchanged`. -/
theorem two_quiet_iterations {s : State} (given : s.turns = []) (phase : s.loop.phase = .consume)
    (empty : s.block.evt = 0#2) :
    ∃ t, runSteps (if patternNow s = s.loop.prevPattern then 5 else 36) s = .next t ∧
      t.loop.phase = .consume ∧ t.log.length ≤ s.log.length + 1 ∧
      ∀ r : Rtc, r.time.hour = s.rtc.time.hour → r.time.minute = s.rtc.time.minute →
        ∃ u, runSteps 5 { t with rtc := r } = .next u ∧ u.loop.phase = .consume ∧ u.log = t.log ∧
          u.display = t.display := by
  have first : ∃ t, runSteps (if patternNow s = s.loop.prevPattern then 5 else 36) s = .next t ∧
      t.loop.phase = .consume ∧ t.log.length ≤ s.log.length + 1 ∧ t.turns = [] ∧ t.block.evt = 0#2 ∧
      t.loop.prevPattern = patternNow s ∧ t.config = s.config := by
    by_cases same : patternNow s = s.loop.prevPattern
    · obtain ⟨t, run, next, turns, slot, log, -, prev, -, config⟩ := runSteps_quiet_unchanged given phase empty same
      exact ⟨t, by rwa [if_pos same], next, by rw [log]; omega, turns, slot, prev.trans same.symm, config⟩
    · obtain ⟨t, run, next, turns, slot, log, prev, -, config⟩ := runSteps_quiet_changed given phase empty same
      exact ⟨t, by rwa [if_neg same], next, log.le, turns, slot, prev, config⟩
  obtain ⟨t, run, next, log, turns, slot, prev, config⟩ := first
  refine ⟨t, run, next, log, fun r hour minute => ?_⟩
  have same : patternNow { t with rtc := r } = t.loop.prevPattern :=
    (patternNow_congr (s := s) (t := { t with rtc := r }) config hour minute).trans prev.symm
  obtain ⟨u, run', next', -, -, log', display', -⟩ :=
    runSteps_quiet_unchanged (s := { t with rtc := r }) turns next slot same
  exact ⟨u, run', next', log', display'⟩

end Sys2Proof.Machine
end

section
/-! PROOFS. The render loop among the other agents' turns (45_host_render_loop.md section 5): how far it is from the
next iteration, and that iterations end (R106). -/

namespace Sys2Proof.Machine

/-! ### How far the loop is from the next iteration -/

/-- A bound on the actions that are left before the next iteration starts. -/
def Phase.rank : Phase → Nat
  | .bootRtc => 4
  | .bootPower => 3
  | .bootReset => 2
  | .bootEdges => 1
  | .consume => 37
  | .adjust => 36
  | .read => 35
  | .translate => 34
  | .compare => 33
  | .idle => 1
  | .setPixel i => 32 - i.val
  | .flush => 2
  | .log => 1
  | .halted => 0

theorem Phase.rank_le (p : Phase) : p.rank ≤ 37 := by
  cases p with
  | setPixel i => simp only [Phase.rank]; omega
  | _ => decide

/-- R106: the loop can go on: it is neither halted nor about to find the RTC unreachable. -/
def Running (s : State) : Prop :=
  s.loop.phase ≠ .halted ∧ (s.loop.phase = .bootRtc → s.rtc.reachable = true)

theorem rank_nextPixel_lt (i : Fin 30) : (nextPixel i).rank < 32 - i.val := by
  unfold nextPixel
  split_ifs with more
  · simp only [Phase.rank]; omega
  · simp only [Phase.rank]; omega

/-- R106: from one phase to a later one of the same iteration, or to the start of the next. -/
abbrev Phase.Advances (p q : Phase) : Prop :=
  0 < p.rank ∧ q ≠ .halted ∧ q ≠ .bootRtc ∧ ((p ≠ .consume ∧ q = .consume) ∨ q.rank < p.rank)

theorem advances_nextPixel (i : Fin 30) : Phase.Advances (.setPixel i) (nextPixel i) := by
  have nearer := rank_nextPixel_lt i
  refine ⟨Nat.zero_lt_of_lt nearer, ?_, ?_, .inr nearer⟩ <;> unfold nextPixel <;> split_ifs <;> nofun

/-- R106: each action of a loop that can go on brings the next iteration nearer or starts it. -/
theorem loopAction_advances {s t : State} (running : Running s) (h : loopAction s = .next t) :
    Phase.Advances s.loop.phase t.loop.phase := by
  cases phase : s.loop.phase with
  | bootRtc =>
    cases (loopAction_bootRtc phase).symm.trans h
    rw [bootRtc_of_reachable (running.2 phase)]
    exact show Phase.Advances .bootRtc .bootPower by decide
  | bootPower =>
    cases (loopAction_bootPower phase).symm.trans h
    rw [(bootPower_fields s).1]
    decide
  | bootReset =>
    cases (loopAction_bootReset phase).symm.trans h
    exact show Phase.Advances .bootReset .bootEdges by decide
  | bootEdges =>
    cases (loopAction_bootEdges phase).symm.trans h
    exact show Phase.Advances .bootEdges .consume by decide
  | consume =>
    obtain ⟨-, rfl⟩ := (loopAction_consume_eq_next phase).mp h
    rw [afterConsume_phase]
    split_ifs <;> decide
  | adjust =>
    cases (loopAction_adjust phase).symm.trans h
    exact show Phase.Advances .adjust .read by decide
  | read =>
    cases (loopAction_read phase).symm.trans h
    exact show Phase.Advances .read .translate by decide
  | translate =>
    cases (loopAction_translate_eq phase).symm.trans h
    exact show Phase.Advances .translate .compare by decide
  | compare =>
    cases (loopAction_compare phase).symm.trans h
    unfold comparePattern
    split_ifs
    · exact show Phase.Advances .compare .idle by decide
    · exact show Phase.Advances .compare (.setPixel 0) by decide
  | idle =>
    cases (loopAction_idle phase).symm.trans h
    exact show Phase.Advances .idle .consume by decide
  | setPixel i =>
    cases (loopAction_setPixel phase).symm.trans h
    exact advances_nextPixel i
  | flush =>
    cases (loopAction_flush phase).symm.trans h
    exact show Phase.Advances .flush .log by decide
  | log =>
    cases (loopAction_log phase).symm.trans h
    exact show Phase.Advances .log .consume by decide
  | halted => exact absurd phase running.1

/-- The render loop takes no turn from the list. -/
theorem loopAction_leaves_turns {s t : State} (h : loopAction s = .next t) : t.turns = s.turns := by
  have same : loopAction s = andThen (loopAction s) (fun u => { u with turns := s.turns }) :=
    loopAction_turns s s.turns
  rw [h] at same
  have kept : t = { t with turns := s.turns } := Host.Outcome.next.inj same
  have same_turns := congrArg State.turns kept
  exact same_turns

/-- R106, left to itself: the next iteration starts within the rank of the phase. -/
theorem iteration_starts (bound : Nat) {s : State} (given : s.turns = []) (legal : s.block.evt ≠ 3#2)
    (running : Running s) (rank : s.loop.phase.rank ≤ bound) :
    ∃ k t, 0 < k ∧ k ≤ bound ∧ runSteps k s = .next t ∧ t.loop.phase = .consume ∧ t.turns = [] := by
  obtain ⟨u, acted⟩ := loopAction_completes legal
  have given' : u.turns = [] := (loopAction_leaves_turns acted).trans given
  have one_step : runSteps 1 s = .next u := runSteps_loopAction 0 acted given
  obtain ⟨positive, not_halted, booted, ⟨-, starts⟩ | nearer⟩ := loopAction_advances running acted
  · exact ⟨1, u, Nat.one_pos, by omega, one_step, starts, given'⟩
  · cases bound with
    | zero => omega
    | succ bound =>
      obtain ⟨k, t, -, short, run, starts, turns⟩ := iteration_starts bound given'
        ((BlockStep.of_loopAction acted).slot_legal legal) ⟨not_halted, fun boot => absurd boot booted⟩ (by omega)
      exact ⟨1 + k, t, by omega, by omega, (runSteps_add 1 k one_step).trans run, starts, turns⟩

/-! ### Among the turns of the other agents -/

/-- What every turn but a power cycle keeps once the RTC is initialised. -/
structure InService (s : State) : Prop where
  slot : s.block.evt ≠ 3#2
  not_halted : s.loop.phase ≠ .halted
  booted : s.loop.phase ≠ .bootRtc

theorem InService.running {s : State} (h : InService s) : Running s :=
  ⟨h.not_halted, fun boot => absurd boot h.booted⟩

theorem InService.of_takeTurn {x : Turn} {s t : State} (h : InService s) (powered : x ≠ .powerCycle)
    (taken : takeTurn x s = .next t) : InService t := by
  have slot := (BlockStep.of_takeTurn taken).slot_legal h.slot
  by_cases is_loop : x = .loop
  · subst is_loop
    obtain ⟨-, not_halted, booted, -⟩ := loopAction_advances h.running taken
    exact ⟨slot, not_halted, booted⟩
  · obtain ⟨loop, -⟩ := takeTurn_leaves_loop is_loop powered taken
    exact ⟨slot, by rw [loop]; exact h.not_halted, by rw [loop]; exact h.booted⟩

section
variable {σ : Nat → Turn} {s : State}

/-- One more turn of an interleaving. -/
theorem runInterleaving_next {n : Nat} {t : State} (powered : ∀ n, σ n ≠ .powerCycle)
    (run : runInterleaving σ n s = .next t) (service : InService t) :
    ∃ u, takeTurn (σ n) t = .next u ∧ runInterleaving σ (n + 1) s = .next u ∧ InService u := by
  obtain ⟨u, taken⟩ := takeTurn_completes (σ n) service.slot
  exact ⟨u, taken, (runInterleaving_succ run).2.trans taken, service.of_takeTurn (powered n) taken⟩

/-- R109: an interleaving without a power cycle never stops. -/
theorem runInterleaving_completes (powered : ∀ n, σ n ≠ .powerCycle) (service : InService s) (n : Nat) :
    ∃ t, runInterleaving σ n s = .next t ∧ InService t := by
  induction n with
  | zero => exact ⟨{ s with turns := [] }, rfl, service.slot, service.not_halted, service.booted⟩
  | succ n ih =>
    obtain ⟨t, run, service'⟩ := ih
    obtain ⟨u, -, run', service''⟩ := runInterleaving_next powered run service'
    exact ⟨u, run', service''⟩

/-- Until the loop's next turn its phase stays. -/
theorem exists_next_loop_turn (powered : ∀ n, σ n ≠ .powerCycle) (wait : Nat) {n : Nat} {t : State}
    (turn : σ (n + wait) = .loop) (run : runInterleaving σ n s = .next t) (service : InService t) :
    ∃ m u, n ≤ m ∧ σ m = .loop ∧ runInterleaving σ m s = .next u ∧ InService u ∧ u.loop = t.loop := by
  induction wait generalizing n t with
  | zero => exact ⟨n, t, le_rfl, turn, run, service, rfl⟩
  | succ wait ih =>
    by_cases now : σ n = .loop
    · exact ⟨n, t, le_rfl, now, run, service, rfl⟩
    · obtain ⟨u, taken, run', service'⟩ := runInterleaving_next powered run service
      have turn' : σ (n + 1 + wait) = .loop := by rw [← turn]; congr 1; omega
      obtain ⟨m, v, later, loop_turn, run'', service'', kept⟩ := ih turn' run' service'
      exact ⟨m, v, by omega, loop_turn, run'', service'', kept.trans (takeTurn_leaves_loop now (powered n) taken).1⟩

/-- R106: with the loop's turn coming again and again, the iteration under way ends. -/
theorem iteration_ends (fair : WeaklyFair σ) (powered : ∀ n, σ n ≠ .powerCycle) (bound : Nat) {n : Nat} {t : State}
    (run : runInterleaving σ n s = .next t) (service : InService t) (rank : t.loop.phase.rank ≤ bound) :
    ∃ m v u, n ≤ m ∧ runInterleaving σ m s = .next v ∧ v.loop.phase ≠ .consume ∧
      runInterleaving σ (m + 1) s = .next u ∧ u.loop.phase = .consume := by
  obtain ⟨m', later', turn⟩ := fair n
  obtain ⟨m, v, later, loop_turn, run', service', kept⟩ :=
    exists_next_loop_turn powered (m' - n) (by rwa [Nat.add_sub_cancel' later']) run service
  obtain ⟨u, taken, run'', service''⟩ := runInterleaving_next powered run' service'
  rw [loop_turn] at taken
  obtain ⟨positive, -, -, ⟨within, starts⟩ | nearer⟩ := loopAction_advances service'.running taken
  · exact ⟨m, v, u, later, run', within, run'', starts⟩
  · rw [kept] at nearer
    cases bound with
    | zero => omega
    | succ bound =>
      obtain ⟨m2, v2, u2, later2, ends⟩ := iteration_ends fair powered bound run'' service'' (by omega)
      exact ⟨m2, v2, u2, by omega, ends⟩

end

/-- Settles O58: the rank is at most 37, and the loop's turns bring it down whatever falls between them. -/
theorem iterationsEnd : Obligations.IterationsEnd := by
  refine ⟨fun s given legal not_halted reachable => ?alone, fun σ s fair powered legal not_halted booted n => ?among⟩
  case alone => exact iteration_starts 37 given legal ⟨not_halted, reachable⟩ (Phase.rank_le _)
  case among =>
    obtain ⟨t, run, service⟩ := runInterleaving_completes powered ⟨legal, not_halted, booted⟩ n
    exact iteration_ends fair powered 37 run service (Phase.rank_le _)

end Sys2Proof.Machine
end

section
/-! PROOFS. The throttle law (45_host_render_loop.md R105) for runs with turns of the other agents, and one clean
press from the button to the strip (00_scope.md section 1). -/

namespace Sys2Proof.Machine

/-! ### The throttle law -/

/-- R95 step 5: a push is under way, its diagnostic line not yet written. -/
abbrev Phase.Rendering (p : Phase) : Prop := p.pushing = true ∨ p = .log

/-- R95 steps 1 to 4: the phases of an iteration before its push. -/
abbrev Phase.Quiet (p : Phase) : Prop :=
  p = .consume ∨ p = .adjust ∨ p = .read ∨ p = .translate ∨ p = .compare ∨ p = .idle

/-- What a run from `s` has pushed by `u`, as long as the hour and the minute stay: nothing yet, or one pattern, that
of the time. -/
inductive Pushed (s u : State) : Prop
  | none (quiet : u.loop.phase.Quiet) (prev : u.loop.prevPattern = s.loop.prevPattern) (log : u.log = s.log)
      (display : u.display = s.display)
  | half (rendering : u.loop.phase.Rendering) (prev : u.loop.prevPattern = patternNow s)
      (changed : patternNow s ≠ s.loop.prevPattern) (log : u.log = s.log)
  | once (quiet : u.loop.phase.Quiet) (prev : u.loop.prevPattern = patternNow s)
      (changed : patternNow s ≠ s.loop.prevPattern) (log : u.log.length = s.log.length + 1)

/-- What every step of such a run keeps. -/
structure Throttled (s u : State) : Prop where
  config : u.config = s.config
  powered : .powerCycle ∉ u.turns
  snapshot : u.loop.phase = .translate →
    u.loop.snapshot.hour = s.rtc.time.hour ∧ u.loop.snapshot.minute = s.rtc.time.minute
  pattern : u.loop.phase = .compare → u.loop.pattern = patternNow s
  pushed : Pushed s u

theorem Phase.Quiet.not_rendering {p : Phase} (h : p.Quiet) : ¬ p.Rendering := by
  obtain rfl | rfl | rfl | rfl | rfl | rfl := h <;> decide

theorem Pushed.phase {s u : State} (h : Pushed s u) : u.loop.phase.Quiet ∨ u.loop.phase.Rendering := by
  cases h with
  | none quiet => exact .inl quiet
  | half rendering => exact .inr rendering
  | once quiet => exact .inl quiet

/-- An action that stays before a push changes nothing of what was pushed. -/
theorem Pushed.of_quiet {s u t : State} (h : Pushed s u) (before : u.loop.phase.Quiet) (after : t.loop.phase.Quiet)
    (prev : t.loop.prevPattern = u.loop.prevPattern) (log : t.log = u.log) (display : t.display = u.display) :
    Pushed s t := by
  cases h with
  | none _ prev' log' display' => exact .none after (prev.trans prev') (log.trans log') (display.trans display')
  | half rendering => exact absurd rendering before.not_rendering
  | once _ prev' changed log' => exact .once after (prev.trans prev') changed (by rw [log, log'])

/-- An action of the push but the last only goes on with it. -/
theorem Pushed.of_rendering {s u t : State} (h : Pushed s u) (before : u.loop.phase.Rendering)
    (after : t.loop.phase.Rendering) (prev : t.loop.prevPattern = u.loop.prevPattern) (log : t.log = u.log) :
    Pushed s t := by
  cases h with
  | none quiet => exact absurd before quiet.not_rendering
  | half _ prev' changed log' => exact .half after (prev.trans prev') changed (log.trans log')
  | once quiet => exact absurd before quiet.not_rendering

/-- R95 step 5: the comparison starts a push only if none was made. -/
theorem Pushed.of_compare {s u : State} (h : Pushed s u) (phase : u.loop.phase = .compare)
    (pattern : u.loop.pattern = patternNow s) : Pushed s (comparePattern u) := by
  by_cases same : u.loop.pattern = u.loop.prevPattern
  · rw [comparePattern_of_eq same]
    exact h.of_quiet (by rw [phase]; decide) (by decide : Phase.Quiet .idle) rfl rfl rfl
  · rw [comparePattern_of_ne same]
    cases h with
    | none _ prev log =>
      exact .half (by decide : Phase.Rendering (.setPixel 0)) pattern (by rwa [← pattern, ← prev]) log
    | half _ prev => exact absurd (pattern.trans prev.symm) same
    | once _ prev => exact absurd (pattern.trans prev.symm) same

/-- R100: the diagnostic line ends the push. -/
theorem Pushed.of_writeLog {s u : State} (h : Pushed s u) (phase : u.loop.phase = .log) : Pushed s (writeLog u) := by
  cases h with
  | none quiet => rw [phase] at quiet; exact absurd quiet (by decide)
  | half _ prev changed log =>
    exact .once (by decide : Phase.Quiet .consume) prev changed (congrArg (fun l => l.length + 1) log)
  | once quiet => rw [phase] at quiet; exact absurd quiet (by decide)

theorem rendering_nextPixel (i : Fin 30) : (nextPixel i).Rendering := by
  unfold nextPixel
  split_ifs <;> exact .inl rfl

/-- The render loop's action keeps `Throttled`, where the hour and the minute are still those of the start. -/
theorem Throttled.of_loopAction {s u t : State} (h : Throttled s u) (hour : u.rtc.time.hour = s.rtc.time.hour)
    (minute : u.rtc.time.minute = s.rtc.time.minute) (acted : loopAction u = .next t) : Throttled s t := by
  have config : t.config = s.config := (BlockStep.of_loopAction acted).config.trans h.config
  have powered : .powerCycle ∉ t.turns := by rw [loopAction_leaves_turns acted]; exact h.powered
  have in_loop := h.pushed.phase
  cases phase : u.loop.phase with
  | consume =>
    obtain ⟨-, rfl⟩ := (loopAction_consume_eq_next phase).mp acted
    obtain after | after : (afterConsume (takeEvent u)).loop.phase = .read ∨
        (afterConsume (takeEvent u)).loop.phase = .adjust := by
      rw [afterConsume_phase]; split_ifs <;> decide
    all_goals
      exact ⟨config, powered, by rw [after]; nofun, by rw [after]; nofun,
        h.pushed.of_quiet (by rw [phase]; decide) (by rw [after]; decide) rfl rfl rfl⟩
  | adjust =>
    cases (loopAction_adjust phase).symm.trans acted
    exact ⟨config, powered, nofun, nofun,
      h.pushed.of_quiet (by rw [phase]; decide) (by decide : Phase.Quiet .read) rfl rfl rfl⟩
  | read =>
    cases (loopAction_read phase).symm.trans acted
    exact ⟨config, powered, fun _ => ⟨hour, minute⟩, nofun,
      h.pushed.of_quiet (by rw [phase]; decide) (by decide : Phase.Quiet .translate) rfl rfl rfl⟩
  | translate =>
    cases (loopAction_translate_eq phase).symm.trans acted
    obtain ⟨same_hour, same_minute⟩ := h.snapshot phase
    have pattern : (showPattern u).loop.pattern = patternNow s := by
      rw [patternNow, ← h.config, ← same_hour, ← same_minute]; rfl
    exact ⟨config, powered, nofun, fun _ => pattern,
      h.pushed.of_quiet (by rw [phase]; decide) (by decide : Phase.Quiet .compare) rfl rfl rfl⟩
  | compare =>
    cases (loopAction_compare phase).symm.trans acted
    refine ⟨config, powered, ?_, ?_, h.pushed.of_compare phase (h.pattern phase)⟩
    all_goals unfold comparePattern; split_ifs <;> nofun
  | idle =>
    cases (loopAction_idle phase).symm.trans acted
    exact ⟨config, powered, nofun, nofun,
      h.pushed.of_quiet (by rw [phase]; decide) (by decide : Phase.Quiet .consume) rfl rfl rfl⟩
  | setPixel i =>
    cases (loopAction_setPixel phase).symm.trans acted
    have after : (pushPixel i u).loop.phase.Rendering := rendering_nextPixel i
    refine ⟨config, powered, fun next => ?_, fun next => ?_,
      h.pushed.of_rendering (by rw [phase]; exact .inl rfl) after rfl rfl⟩
    all_goals rw [next] at after; exact absurd after (by decide)
  | flush =>
    cases (loopAction_flush phase).symm.trans acted
    exact ⟨config, powered, nofun, nofun,
      h.pushed.of_rendering (by rw [phase]; decide) (by decide : Phase.Rendering .log) rfl rfl⟩
  | log =>
    cases (loopAction_log phase).symm.trans acted
    exact ⟨config, powered, nofun, nofun, h.pushed.of_writeLog phase⟩
  | bootRtc => rw [phase] at in_loop; exact absurd in_loop (by decide)
  | bootPower => rw [phase] at in_loop; exact absurd in_loop (by decide)
  | bootReset => rw [phase] at in_loop; exact absurd in_loop (by decide)
  | bootEdges => rw [phase] at in_loop; exact absurd in_loop (by decide)
  | halted => rw [phase] at in_loop; exact absurd in_loop (by decide)

/-- A turn of another agent changes nothing that `Throttled` is about. -/
theorem Throttled.congr {s u t : State} (h : Throttled s u) (config : t.config = u.config) (loop : t.loop = u.loop)
    (display : t.display = u.display) (log : t.log = u.log) (powered : .powerCycle ∉ t.turns) : Throttled s t := by
  refine ⟨config.trans h.config, powered, by rw [loop]; exact h.snapshot, by rw [loop]; exact h.pattern, ?_⟩
  cases h.pushed with
  | none quiet prev log' display' =>
    exact .none (by rwa [loop]) (by rwa [loop]) (log.trans log') (display.trans display')
  | half rendering prev changed log' => exact .half (by rwa [loop]) (by rwa [loop]) changed (log.trans log')
  | once quiet prev changed log' => exact .once (by rwa [loop]) (by rwa [loop]) changed (by rw [log, log'])

theorem Throttled.of_step {s u t : State} (h : Throttled s u) (hour : u.rtc.time.hour = s.rtc.time.hour)
    (minute : u.rtc.time.minute = s.rtc.time.minute) (stepped : step u = .next t) : Throttled s t := by
  obtain ⟨-, acted⟩ | ⟨x, rest, given, taken⟩ := step_cases stepped
  · exact h.of_loopAction hour minute acted
  · have first_powered : x ≠ .powerCycle := fun is => h.powered (by rw [given, is]; exact List.mem_cons_self)
    have rest_powered : .powerCycle ∉ rest := fun later =>
      h.powered (by rw [given]; exact List.mem_cons_of_mem x later)
    have waiting : Throttled s { u with turns := rest } := h.congr rfl rfl rfl rfl rest_powered
    by_cases is_loop : x = .loop
    · subst is_loop
      exact waiting.of_loopAction hour minute taken
    · obtain ⟨loop, display, log, turns⟩ := takeTurn_leaves_loop is_loop first_powered taken
      exact h.congr (BlockStep.of_takeTurn taken).config loop display log (by rw [turns]; exact rest_powered)

/-- A run is its steps but the last, and the last. -/
theorem runSteps_succ_last {k : Nat} {s t : State} (run : runSteps (k + 1) s = .next t) :
    ∃ u, runSteps k s = .next u ∧ step u = .next t := by
  induction k generalizing s with
  | zero =>
    cases only : step s with
    | next u => rw [runSteps_succ 0 only] at run; cases run; exact ⟨s, rfl, only⟩
    | fault r => simp only [runSteps, only] at run; cases run
    | refused r => simp only [runSteps, only] at run; cases run
  | succ k ih =>
    cases first : step s with
    | next v =>
      rw [runSteps_succ _ first] at run
      obtain ⟨u, rest, last⟩ := ih run
      exact ⟨u, (runSteps_succ k first).trans rest, last⟩
    | fault r => simp only [runSteps, first] at run; cases run
    | refused r => simp only [runSteps, first] at run; cases run

/-- R105: a run whose states all show the hour and the minute of its start keeps `Throttled`. -/
theorem runSteps_throttled {s : State} (phase : s.loop.phase = .consume) (powered : .powerCycle ∉ s.turns) (k : Nat)
    (same_time : ∀ j u, j ≤ k → runSteps j s = .next u →
      u.rtc.time.hour = s.rtc.time.hour ∧ u.rtc.time.minute = s.rtc.time.minute)
    {t : State} (run : runSteps k s = .next t) : Throttled s t := by
  induction k generalizing t with
  | zero =>
    cases run
    exact ⟨rfl, powered, by rw [phase]; nofun, by rw [phase]; nofun, .none (.inl phase) rfl rfl rfl⟩
  | succ k ih =>
    obtain ⟨u, before, last⟩ := runSteps_succ_last run
    obtain ⟨hour, minute⟩ := same_time k u (Nat.le_succ k) before
    exact (ih (fun j v hj => same_time j v (Nat.le_succ_of_le hj)) before).of_step hour minute last

/-- R105: what was pushed is one line at most, and nothing where `H.prev_pattern` was the time's pattern. -/
theorem Pushed.bound {s t : State} (h : Pushed s t) : t.log.length ≤ s.log.length + 1 ∧
    (patternNow s = s.loop.prevPattern → t.log = s.log ∧ t.display = s.display) := by
  cases h with
  | none _ _ log display => exact ⟨by rw [log]; omega, fun _ => ⟨log, display⟩⟩
  | half _ _ changed log => exact ⟨by rw [log]; omega, fun same => absurd same changed⟩
  | once _ _ changed log => exact ⟨log.le, fun same => absurd same changed⟩

/-- Settles O56: the invariant `Throttled` for runs with turns, and the two iterations of `two_quiet_iterations`. -/
theorem twoIterationsPushAtMostOnce : Obligations.TwoIterationsPushAtMostOnce :=
  ⟨fun k _ _ phase powered same_time run => (runSteps_throttled phase powered k same_time run).pushed.bound,
    fun _ given phase empty => two_quiet_iterations given phase empty⟩

/-! ### One clean press, end to end -/

/-- R95 steps 4 and 5: from the comparison of a pattern, the strip shows it when the next iteration starts, pushed now
or before. -/
theorem runSteps_from_compare {s : State} (given : s.turns = []) (phase : s.loop.phase = .compare)
    (follows : DisplayFollows s) (pattern : s.loop.pattern ≠ 0#32) :
    ∃ k t, k ≤ 33 ∧ runSteps k s = .next t ∧ t.loop.phase = .consume ∧ t.turns = [] ∧ t.block = s.block ∧
      t.rtc = s.rtc ∧ t.config = s.config ∧ t.display.shown = expand s.config s.loop.pattern := by
  by_cases same : s.loop.pattern = s.loop.prevPattern
  · rw [displayFollows_of_not_pushing (by rw [phase]; rfl), ← same] at follows
    exact ⟨2, s.toPhase .consume, by decide, runSteps_idle given phase same, rfl, given, rfl, rfl, rfl,
      follows.resolve_left pattern⟩
  · obtain ⟨t, run, next, -, shown, -, block, rtc, config, turns⟩ := runSteps_push given phase same
    exact ⟨33, t, le_rfl, run, next, turns, block, rtc, config, shown⟩

/-- R103: an edge turn with the edge source enabled is its operation. -/
theorem step_of_edge_turn {s : State} {ch : Channel} {e : Edge} {ts : Nat} {rest : List Turn}
    (given : s.turns = .edge ch e ts :: rest) (enabled : s.loop.edgesEnabled = true) :
    step s = exec (e.instr ch ts) { s with turns := rest } := by
  rw [step_of_turn given, takeTurn, edgeNotification_eq]
  exact if_pos enabled

/-- R78, R79: the state after the two edges of a press. -/
def afterPress (ch : Channel) (t0 t1 : Nat) (s : State) : State :=
  endPress ch t1 { startPress ch t0 s with turns := [] }

@[simp] theorem afterPress_config (ch : Channel) (t0 t1 : Nat) (s : State) :
    (afterPress ch t0 t1 s).config = s.config := rfl
@[simp] theorem afterPress_turns (ch : Channel) (t0 t1 : Nat) (s : State) : (afterPress ch t0 t1 s).turns = [] := rfl
@[simp] theorem afterPress_loop (ch : Channel) (t0 t1 : Nat) (s : State) :
    (afterPress ch t0 t1 s).loop = s.loop := rfl
@[simp] theorem afterPress_rtc (ch : Channel) (t0 t1 : Nat) (s : State) : (afterPress ch t0 t1 s).rtc = s.rtc := rfl
@[simp] theorem afterPress_freeCount (ch : Channel) (t0 t1 : Nat) (s : State) :
    (afterPress ch t0 t1 s).freeCount = s.freeCount + 2 := rfl

theorem afterPress_evt {ch : Channel} {t0 t1 : Nat} {s : State} (clean : 50 < elapsed s.config t1 t0)
    (empty : s.block.evt = 0#2) : (afterPress ch t0 t1 s).block.evt = eventOf ch :=
  slotAfterRelease_of_clean (s := { startPress ch t0 s with turns := [] }) (isCleanRelease_startPress.mpr clean)
    ((startPress_evt ch t0 s).trans empty)

/-- R103: two steps take the two edges of a press. -/
theorem runSteps_press {s : State} {ch : Channel} {t0 t1 : Nat}
    (given : s.turns = [.edge ch .falling t0, .edge ch .rising t1]) (enabled : s.loop.edgesEnabled = true)
    (legal : s.block.evt ≠ 3#2) : runSteps 2 s = .next (afterPress ch t0 t1 s) := by
  have first : step s = .next (startPress ch t0 { s with turns := [.edge ch .rising t1] }) :=
    step_of_edge_turn given enabled
  have second := step_of_edge_turn (s := startPress ch t0 { s with turns := [.edge ch .rising t1] }) rfl enabled
  have slot : (startPress ch t0 { s with turns := [] }).block.evt ≠ 3#2 := by rwa [startPress_evt]
  rw [runSteps_succ 1 first, runSteps_succ 0 (second.trans (exec_edgeR slot)), runSteps_zero]
  rfl

/-- Settles O60: the two edges, the event applied, the time read and translated, and the strip by the comparison. -/
theorem cleanPressMovesClockAndDisplay : Obligations.CleanPressMovesClockAndDisplay := by
  intro s ch t0 t1 given phase enabled empty clean follows
  have event := afterPress_evt (ch := ch) clean empty
  have to_read : runSteps (2 + 2) s = .next (applyEvent (afterPress ch t0 t1 s)) := by
    rw [runSteps_add 2 2 (runSteps_press given enabled (by rw [empty]; decide))]
    exact runSteps_applyEvent rfl phase event
  have to_compare : runSteps (2 + 2 + 2) s = .next (readAndTranslate (applyEvent (afterPress ch t0 t1 s))) := by
    rw [runSteps_add (2 + 2) 2 to_read]
    exact runSteps_readAndTranslate (applyEvent_turns _) (applyEvent_phase _)
  have time := applyEvent_time event
  rw [afterPress_config, afterPress_freeCount, afterPress_rtc] at time
  obtain ⟨k, u, short, run, next, turns, block, rtc, config, shown⟩ := runSteps_from_compare
    (s := readAndTranslate (applyEvent (afterPress ch t0 t1 s))) (by simp) (by simp)
    (runSteps_invariant stepKeepsDisplayFollows follows to_compare) (patternNow_ne_zero _)
  have clock : u.rtc.time = rtcAdjust s.config (s.freeCount + 3) (deltaOf ch) s.rtc.time := by
    rw [rtc]; exact time
  refine ⟨2 + 2 + 2 + k, u, by omega, ?run, next, turns, ?slot, ?call, fun reference => ?moved, ?strip⟩
  case run => rw [runSteps_add _ k to_compare, run]
  case slot => rw [block, readAndTranslate_block, applyEvent_evt]
  case call => cases ch <;> exact clock
  case moved =>
    have moved := rtcAdjust_of_reference (s.freeCount + 3) (deltaOf ch) s.rtc.time reference
    rw [← clock] at moved
    cases ch <;> exact moved
  case strip =>
    have same_pattern : patternNow u = patternNow (applyEvent (afterPress ch t0 t1 s)) :=
      patternNow_congr config (by rw [rtc]; rfl) (by rw [rtc]; rfl)
    rw [shown, same_pattern, readAndTranslate_pattern, readAndTranslate_config, applyEvent_config, afterPress_config]

end Sys2Proof.Machine
end

section
/-! PROOFS. The assembler of 30_encoding.md R57 and R58: how a line is cut into words, how a number's text is read
back, and the statement on the text of each operation. -/

namespace Sys2Proof.Machine

/-! ### Words -/

/-- A character that neither ends a word nor starts a comment. -/
abbrev PlainChar (c : Char) : Prop := c ≠ ';' ∧ c ≠ ' ' ∧ c ≠ '\t' ∧ c ≠ ','

/-- A word of a line: plain characters, and at least one. -/
structure PlainWord (w : List Char) : Prop where
  ne_nil : w ≠ []
  plain : ∀ c ∈ w, PlainChar c

/-- The end of a line: nothing more, or a comment (R57). -/
abbrev LineEnd (cs : List Char) : Prop := cs = [] ∨ ∃ note, cs = ';' :: note

theorem closeWord_of_ne_nil {w : List Char} (h : w ≠ []) : closeWord w = [w] := by
  cases w with
  | nil => exact absurd rfl h
  | cons c cs => rfl

theorem lineWords_cons_plain (word cs : List Char) {c : Char} (h : PlainChar c) :
    lineWords word (c :: cs) = lineWords (word ++ [c]) cs := by
  obtain ⟨semicolon, blank, tab, comma⟩ := h
  simp [lineWords, semicolon, blank, tab, comma]

theorem lineWords_blank (word cs : List Char) : lineWords word (' ' :: cs) = closeWord word ++ lineWords [] cs := rfl

theorem lineWords_comma (word cs : List Char) :
    lineWords word (',' :: cs) = closeWord word ++ [','] :: lineWords [] cs := rfl

theorem lineWords_lineEnd (word : List Char) {cs : List Char} (h : LineEnd cs) :
    lineWords word cs = closeWord word := by
  obtain rfl | ⟨note, rfl⟩ := h <;> rfl

/-- Plain characters go on with the word that is open. -/
theorem lineWords_append_plain (word w rest : List Char) (plain : ∀ c ∈ w, PlainChar c) :
    lineWords word (w ++ rest) = lineWords (word ++ w) rest := by
  induction w generalizing word with
  | nil => rw [List.nil_append, List.append_nil]
  | cons c w ih =>
    rw [List.cons_append, lineWords_cons_plain _ _ (plain c List.mem_cons_self),
      ih _ fun d hd => plain d (List.mem_cons_of_mem c hd), List.append_assoc, List.singleton_append]

section
variable {w : List Char} (word : PlainWord w)
include word

/-- A word before a blank. -/
theorem lineWords_word_blank (rest : List Char) : lineWords [] (w ++ ' ' :: rest) = w :: lineWords [] rest := by
  rw [lineWords_append_plain [] w _ word.plain, List.nil_append, lineWords_blank, closeWord_of_ne_nil word.ne_nil]
  rfl

/-- An operand before another. -/
theorem lineWords_word_comma (rest : List Char) :
    lineWords [] (w ++ ',' :: ' ' :: rest) = w :: [','] :: lineWords [] rest := by
  rw [lineWords_append_plain [] w _ word.plain, List.nil_append, lineWords_comma, lineWords_blank,
    closeWord_of_ne_nil word.ne_nil]
  rfl

/-- The last word of a line. -/
theorem lineWords_word_end {rest : List Char} (done : LineEnd rest) : lineWords [] (w ++ rest) = [w] := by
  rw [lineWords_append_plain [] w _ word.plain, List.nil_append, lineWords_lineEnd w done,
    closeWord_of_ne_nil word.ne_nil]

end

/-! ### Numbers -/

/-- A digit in base 10 or 16 is a plain character and is read back. -/
theorem digitChar_facts {d : Nat} (h : d < 16) :
    PlainChar (Nat.digitChar d) ∧ digitValue 16 (Nat.digitChar d) = some d ∧
      (d < 10 → digitValue 10 (Nat.digitChar d) = some d ∧ Nat.digitChar d ≠ 'x') := by
  interval_cases d <;> decide

/-- Every character of a number is a digit of its base. -/
theorem mem_toDigits {b : Nat} (base : 1 < b) (n : Nat) : ∀ c ∈ Nat.toDigits b n, ∃ d < b, c = Nat.digitChar d := by
  induction n using Nat.strong_induction_on with
  | _ n ih =>
    obtain small | large := Nat.lt_or_ge n b
    · rw [Nat.toDigits_of_lt_base small]
      intro c hc
      exact ⟨n, small, List.mem_singleton.mp hc⟩
    · rw [Nat.toDigits_of_base_le base large]
      intro c hc
      obtain front | last := List.mem_append.mp hc
      · exact ih (n / b) (Nat.div_lt_self (by omega) base) c front
      · exact ⟨n % b, Nat.mod_lt _ (by omega), List.mem_singleton.mp last⟩

/-- The last digit of a row counts once, the others `base` times. -/
theorem digitsValue_append_digit {b d acc v : Nat} {c : Char} {cs : List Char} (front : digitsValue b acc cs = some v)
    (last : digitValue b c = some d) : digitsValue b acc (cs ++ [c]) = some (v * b + d) := by
  induction cs generalizing acc with
  | nil => cases front; simp [digitsValue, last]
  | cons e cs ih =>
    simp only [List.cons_append, digitsValue] at front ⊢
    cases value : digitValue b e with
    | none => rw [value] at front; cases front
    | some x => rw [value] at front; exact ih front

/-- A number is read back from its digits. -/
theorem digitsValue_toDigits {b : Nat} (base : 1 < b)
    (digits : ∀ d < b, digitValue b (Nat.digitChar d) = some d) (n : Nat) :
    digitsValue b 0 (Nat.toDigits b n) = some n := by
  induction n using Nat.strong_induction_on with
  | _ n ih =>
    obtain small | large := Nat.lt_or_ge n b
    · rw [Nat.toDigits_of_lt_base small]
      simp [digitsValue, digits n small]
    · have front := ih (n / b) (Nat.div_lt_self (by omega) base)
      have last := digits (n % b) (Nat.mod_lt _ (by omega))
      rw [Nat.toDigits_of_base_le base large, digitsValue_append_digit front last, Nat.div_add_mod']

theorem plainWord_toDigits {b : Nat} (base : 1 < b) (small : b ≤ 16) (n : Nat) : PlainWord (Nat.toDigits b n) := by
  refine ⟨Nat.toDigits_ne_nil, fun c hc => ?_⟩
  obtain ⟨d, below, rfl⟩ := mem_toDigits base n c hc
  exact (digitChar_facts (by omega)).1

theorem numberText_toList (hex : Bool) (n : Nat) :
    (numberText hex n).toList = if hex then '0' :: 'x' :: Nat.toDigits 16 n else Nat.toDigits 10 n := by
  cases hex <;> simp [numberText]

theorem plainWord_numberText (hex : Bool) (n : Nat) : PlainWord (numberText hex n).toList := by
  rw [numberText_toList]
  cases hex with
  | false => exact plainWord_toDigits (by decide) (by decide) n
  | true =>
    refine ⟨nofun, fun c hc => ?_⟩
    obtain rfl | rfl | digit := by simpa using hc
    · decide
    · decide
    · exact (plainWord_toDigits (by decide) (by decide) n).plain c digit

/-- R57: a number with no `x` in it is decimal. -/
theorem numberWord_of_decimal {cs : List Char} (ne_nil : cs ≠ []) (no_x : 'x' ∉ cs) :
    numberWord cs = digitsValue 10 0 cs := by
  unfold numberWord
  split
  · exact absurd rfl ne_nil
  · exact absurd (by simp) no_x
  · rfl

/-- R57: the text of a number is read back, in decimal and after `0x`. -/
theorem numberWord_numberText (hex : Bool) (n : Nat) : numberWord (numberText hex n).toList = some n := by
  rw [numberText_toList]
  cases hex with
  | false =>
    have no_x : 'x' ∉ Nat.toDigits 10 n := by
      intro is_digit
      obtain ⟨d, below, x⟩ := mem_toDigits (by decide) n 'x' is_digit
      exact ((digitChar_facts (by omega)).2.2 below).2 x.symm
    exact (numberWord_of_decimal Nat.toDigits_ne_nil no_x).trans
      (digitsValue_toDigits (by decide) (fun d below => ((digitChar_facts (by omega)).2.2 below).1) n)
  | true =>
    have value := digitsValue_toDigits (b := 16) (by decide) (fun d below => (digitChar_facts below).2.1) n
    simp only [if_true]
    cases digits : Nat.toDigits 16 n with
    | nil => exact absurd digits Nat.toDigits_ne_nil
    | cons c cs => rw [digits] at value; exact value

theorem plainWord_channelText (ch : Channel) : PlainWord (channelText ch).toList := by
  cases ch <;> exact ⟨by simp [channelText], by simp [channelText, PlainChar]⟩

theorem channelWord_channelText (ch : Channel) : channelWord (channelText ch).toList = some ch := by
  cases ch <;> rfl

/-! ### Lines -/

theorem plainWord_mnemonic {op : String} (h : op ∈ ["TRANSLATE", "EDGE.F", "EDGE.R", "CONSUME", "STATUS", "PRESS"]) :
    PlainWord op.toList := by
  simp only [List.mem_cons, List.not_mem_nil, or_false] at h
  obtain rfl | rfl | rfl | rfl | rfl | rfl := h
  all_goals exact ⟨by simp, by simp [PlainChar]⟩

/-- A line of one word. -/
theorem assembleLine_plain {op : List Char} {tail : String} {line : String} (opWord : PlainWord op)
    (done : LineEnd tail.toList) (text : line.toList = op) : assembleLine (line ++ tail) = assembleWords [op] := by
  rw [assembleLine, String.toList_append, text, lineWords_word_end opWord done]

/-- A line of an operation with two operands. -/
theorem assembleLine_two {op a b : List Char} {tail : String} {line : String} (opWord : PlainWord op)
    (aWord : PlainWord a) (bWord : PlainWord b) (done : LineEnd tail.toList)
    (text : line.toList = op ++ ' ' :: (a ++ ',' :: ' ' :: b)) :
    assembleLine (line ++ tail) = assembleWords [op, a, [','], b] := by
  rw [assembleLine, String.toList_append, text]
  simp only [List.append_assoc, List.cons_append]
  rw [lineWords_word_blank opWord, lineWords_word_comma aWord, lineWords_word_end bWord done]

/-- A line of an operation with three operands. -/
theorem assembleLine_three {op a b c : List Char} {tail : String} {line : String} (opWord : PlainWord op)
    (aWord : PlainWord a) (bWord : PlainWord b) (cWord : PlainWord c) (done : LineEnd tail.toList)
    (text : line.toList = op ++ ' ' :: (a ++ ',' :: ' ' :: (b ++ ',' :: ' ' :: c))) :
    assembleLine (line ++ tail) = assembleWords [op, a, [','], b, [','], c] := by
  rw [assembleLine, String.toList_append, text]
  simp only [List.append_assoc, List.cons_append]
  rw [lineWords_word_blank opWord, lineWords_word_comma aWord, lineWords_word_comma bWord,
    lineWords_word_end cWord done]

/-- R57: the text of a well-formed operation assembles to it. -/
theorem assembleLine_instrText (hex : Bool) {tail : String} (done : LineEnd tail.toList) {i : Instr}
    (wf : i.wellFormed = true) : assembleLine (instrText hex i ++ tail) = some [i] := by
  cases i with
  | translate hour minute =>
    simp only [Instr.wellFormed, Bool.and_eq_true, decide_eq_true_iff] at wf
    have words := assembleLine_two (op := "TRANSLATE".toList) (line := instrText hex (.translate hour minute))
      (plainWord_mnemonic (by simp)) (plainWord_numberText hex hour.toNat) (plainWord_numberText hex minute.toNat)
      done (by simp [instrText])
    rw [words]
    simp [assembleWords, translateLine, numberWord_numberText, wf]
  | edgeF ch ts =>
    have words := assembleLine_two (op := "EDGE.F".toList) (line := instrText hex (.edgeF ch ts))
      (plainWord_mnemonic (by simp)) (plainWord_channelText ch) (plainWord_numberText hex ts) done
      (by simp [instrText])
    rw [words]
    simp [assembleWords, edgeLine, channelWord_channelText, numberWord_numberText, Edge.instr]
  | edgeR ch ts =>
    have words := assembleLine_two (op := "EDGE.R".toList) (line := instrText hex (.edgeR ch ts))
      (plainWord_mnemonic (by simp)) (plainWord_channelText ch) (plainWord_numberText hex ts) done
      (by simp [instrText])
    rw [words]
    simp [assembleWords, edgeLine, channelWord_channelText, numberWord_numberText, Edge.instr]
  | consume =>
    have words := assembleLine_plain (op := "CONSUME".toList) (line := instrText hex .consume)
      (plainWord_mnemonic (by simp)) done rfl
    rw [words]
    rfl
  | status =>
    have words := assembleLine_plain (op := "STATUS".toList) (line := instrText hex .status)
      (plainWord_mnemonic (by simp)) done rfl
    rw [words]
    rfl

/-- R58: the text of a press assembles to its two edges. -/
theorem assembleLine_pressText (hex : Bool) {tail : String} (done : LineEnd tail.toList) (ch : Channel)
    (t0 t1 : Nat) :
    assembleLine (pressText hex ch t0 t1 ++ tail) = some [.edgeF ch t0, .edgeR ch t1] := by
  have words := assembleLine_three (op := "PRESS".toList) (line := pressText hex ch t0 t1)
    (plainWord_mnemonic (by simp)) (plainWord_channelText ch) (plainWord_numberText hex t0)
    (plainWord_numberText hex t1) done (by simp [pressText])
  rw [words]
  simp [assembleWords, pressLine, channelWord_channelText, numberWord_numberText, press]

/-! ### What a line can yield -/

theorem translateLine_wellFormed {h m : List Char} {is : List Instr} (assembled : translateLine h m = some is) :
    ∀ i ∈ is, i.wellFormed = true := by
  unfold translateLine at assembled
  split at assembled
  · split_ifs at assembled with legal
    cases assembled
    obtain ⟨hour, minute⟩ := legal
    simp [Instr.wellFormed]
    omega
  · cases assembled

theorem edgeLine_wellFormed {e : Edge} {b t : List Char} {is : List Instr} (assembled : edgeLine e b t = some is) :
    ∀ i ∈ is, i.wellFormed = true := by
  unfold edgeLine at assembled
  split at assembled
  · cases assembled
    simp [edge_instr_wellFormed]
  · cases assembled

theorem pressLine_wellFormed {b t0 t1 : List Char} {is : List Instr} (assembled : pressLine b t0 t1 = some is) :
    ∀ i ∈ is, i.wellFormed = true := by
  unfold pressLine at assembled
  split at assembled
  · cases assembled
    simp [press, Instr.wellFormed]
  · cases assembled

/-- R57: only operations that have a command word. -/
theorem assembleWords_wellFormed {ws : List (List Char)} {is : List Instr} (assembled : assembleWords ws = some is) :
    ∀ i ∈ is, i.wellFormed = true := by
  unfold assembleWords at assembled
  split at assembled
  · cases assembled; simp
  · split_ifs at assembled <;> (cases assembled; simp [Instr.wellFormed])
  · split_ifs at assembled
    · exact translateLine_wellFormed assembled
    · exact edgeLine_wellFormed assembled
    · exact edgeLine_wellFormed assembled
  · split_ifs at assembled
    exact pressLine_wellFormed assembled
  · cases assembled

/-- Settles O7: what the lines yield, and the texts read back word by word. -/
theorem assembledOperationsAreWellFormed : Obligations.AssembledOperationsAreWellFormed := by
  refine ⟨fun line is assembled => assembleWords_wellFormed assembled, fun hex tail ends => ?_⟩
  have done : LineEnd tail.toList := by
    obtain rfl | ⟨note, rfl⟩ := ends
    · exact .inl rfl
    · exact .inr ⟨note.toList, by simp⟩
  exact ⟨fun i wf => assembleLine_instrText hex done wf, fun ch t0 t1 => assembleLine_pressText hex done ch t0 t1⟩

end Sys2Proof.Machine
end
